-- ==== Sys2Proof/Word.lean ====
section
/-! DEFINITION. The word types of SPHASH-CORE/64 (00_scope.md R5, R8, R9): lanes, seeds, sizes, addresses,
constants and results are unsigned 64-bit values; memory is made of 8-bit bytes. Bit 0 is the least significant. -/

namespace Sys2Proof

/-- A lane, seed, size, address, constant or result: `XLEN = SIZE_W = ADDR_W = 64` (00_scope.md R5). -/
abbrev Word := BitVec 64

/-- One byte of the input space (20_memory.md R60). -/
abbrev Byte := BitVec 8

end Sys2Proof
end

