-- ==== Sys2Proof/Config.lean ====
section
/-! DEFINITION. What the spec leaves open, as uninterpreted constants: nothing in Lean can evaluate them. -/

namespace Sys2Proof.Config

/-- The source of the four `OPEN` constants `K[0..3]` (00_scope.md R5, 92_eei_decisions.md D3; log 1). No value is chosen. -/
opaque constSource : Nat → Word

/-- `K[j]`, "a fixed 64-bit value whose bit 0 is 1" (00_scope.md R6): bits [63:1] are those of the uninterpreted
source, bit 0 is set, so that every odd value is possible and no even one. -/
def k (j : Nat) : Word := constSource j ||| 1

/-- `REGBASE`, the platform's bus address of host register 0: `OPEN` (00_scope.md R5, 92_eei_decisions.md D7; log 20). -/
opaque regBase : Word

/-- The register stride, the spacing of the host registers on the platform's bus: `OPEN` (00_scope.md R5; log 20). The
suggested 8 (10_state.md R22) is not chosen. -/
opaque regStride : Word

/-- The free values of the model, one for each draw: what a read returns that the spec calls unspecified
(93_implementation_defined.md U8, U9), and what a reset leaves in the registers the spec gives no value (U12; log 3, 8). -/
opaque freeValue : Nat → Word

end Sys2Proof.Config
end

