-- ==== Sys2Proof/Syntax.lean ====
section
/-! DEFINITION. The operations of SPHASH-CORE/64, one constructor per row of spec/opcode_table.json
(30_encoding.md R96), the micro-program counter's values (R93), the reader widths (20_memory.md R64) and the
encoded forms of the four formats (R90). -/

namespace Sys2Proof

/-- The 34 operations: 2 host commands, 26 micro-operations counting each packing layout once, 6 primitives. -/
inductive Instr where
  /-- `HASH64`, format C (45_commands.md R201). -/
  | hash64
  /-- `HASH32`, format C (45_commands.md R202). -/
  | hash32
  /-- `SALT`, format U (45_commands.md R203). -/
  | salt
  /-- `PACK.0`, the layout for launched size 0 (R142). -/
  | pack0
  /-- `PACK.1`, the layout for launched size 1 (R143). -/
  | pack1
  /-- `PACK.2`, the layout for launched size 2 (R144). -/
  | pack2
  /-- `PACK.3`, the layout for launched size 3 (R145). -/
  | pack3
  /-- `PACK.4`, the layout for launched size 4 (R146). -/
  | pack4
  /-- `PACK.5`, the layout for launched size 5 (R147). -/
  | pack5
  /-- `PACK.6`, the layout for launched size 6 (R148). -/
  | pack6
  /-- `PACK.7`, the layout for launched size 7 (R149). -/
  | pack7
  /-- `PACK.8`, the layout for launched size 8 (R150). -/
  | pack8
  /-- `PACK.9`, the layout for launched size 9 (R151). -/
  | pack9
  /-- `PACK.10`, the layout for launched size 10 (R152). -/
  | pack10
  /-- `PACK.11`, the layout for launched size 11 (R153). -/
  | pack11
  /-- `PACK.12`, the layout for launched size 12 (R154). -/
  | pack12
  /-- `PACK.13`, the layout for launched size 13 (R155). -/
  | pack13
  /-- `PACK.14`, the layout for launched size 14 (R156). -/
  | pack14
  /-- `PACK.15`, the layout for launched size 15 (R157). -/
  | pack15
  /-- `PACK.16`, the layout for launched size 16 (R158). -/
  | pack16
  /-- `BINIT`, format U (43_bulk_folder.md R170). -/
  | binit
  /-- `B32`, format U (43_bulk_folder.md R171). -/
  | b32
  /-- `BJOIN`, format U (43_bulk_folder.md R172). -/
  | bjoin
  /-- `B16`, format U (43_bulk_folder.md R173). -/
  | b16
  /-- `TAIL`, format U (43_bulk_folder.md R174). -/
  | tail
  /-- `FIN`, format U (44_finalizer.md R190). -/
  | fin
  /-- `FOLD32`, format U (44_finalizer.md R191). -/
  | fold32
  /-- `RET`, format U (45_commands.md R204). -/
  | ret
  /-- `RD1(a)`, format P (41_byte_readers.md R130). -/
  | rd1 (a : Word)
  /-- `RD2(a)`, format P (41_byte_readers.md R131). -/
  | rd2 (a : Word)
  /-- `RD4(a)`, format P (41_byte_readers.md R132). -/
  | rd4 (a : Word)
  /-- `RD8(a)`, format P (41_byte_readers.md R133). -/
  | rd8 (a : Word)
  /-- `MUM(a, b)`, format P (40_mix.md R121). -/
  | mum (a b : Word)
  /-- `MIX(a, b)`, format P (40_mix.md R122). -/
  | mix (a b : Word)
  deriving DecidableEq, Repr

/-- The values of `UPC` (10_state.md R35, 30_encoding.md R93). Codes 11 to 15 are produced by no rule and an
enumeration does not have them (R98; log 16). -/
inductive Upc where
  | idle | salt | pack | binit | b32 | bjoin | b16 | tail | fin | fold32 | ret
  deriving DecidableEq, Repr

/-- The widths the byte readers have (20_memory.md R64), and of an access on the platform's bus (log 20). -/
inductive ReadWidth where
  | w1 | w2 | w4 | w8
  deriving DecidableEq, Repr

/-- The encoded forms (30_encoding.md R90): format C, the 64-bit word written to `CMD`; format S, the 64-bit value of
`N` when `UPC` is `PACK`; format U, the 4-bit code in `UPC`; format P, the 3-bit request code with the operands the
calling micro-operation hands to the primitive. -/
inductive Encoded where
  | cmd (w : Word)
  | size (n : Word)
  | uop (code : BitVec 4)
  | prim (ureq : BitVec 3) (a b : Word)
  deriving DecidableEq, Repr

end Sys2Proof
end

