-- ==== Sys2Proof/WellFormed.lean ====
section
/-! DEFINITION. The checks on encoded forms (30_encoding.md R91 to R94, R97, R98) and on the constant table (00_scope.md R6). -/

namespace Sys2Proof

/-- `OPC`, bits [7:0] of a command word (30_encoding.md R91). -/
def cmdOpc (w : Word) : BitVec 8 := w.extractLsb' 0 8

/-- `RSV`, bits [63:8] of a command word (30_encoding.md R91). -/
def cmdRsv (w : Word) : BitVec 56 := w.extractLsb' 8 56

/-- A valid command word: `OPC` is 1 or 2 and `RSV` is 0 (30_encoding.md R91, R97). -/
def cmdWordOk (w : Word) : Bool := cmdRsv w == 0 && (cmdOpc w == 1 || cmdOpc w == 2)

/-- A size that selects a packing layout (30_encoding.md R92). -/
def shortSize (n : Word) : Bool := n.toNat ≤ 16

/-- A format U code that names a micro-operation by itself: 1 and 3 to 10 (30_encoding.md R93; code 2, PACK, is
selected further by format S, code 0 is IDLE, 11 to 15 are reserved). -/
def uopCodeOk (c : BitVec 4) : Bool := 1 ≤ c.toNat && c.toNat ≤ 10 && c.toNat != 2

/-- A format P request: the code names a primitive, and a byte reader has no second operand (30_encoding.md R94, R98;
41_byte_readers.md R134). -/
def primOk (u : BitVec 3) (b : Word) : Bool := u.toNat ≤ 5 && (4 ≤ u.toNat || b == 0)

/-- The encoded forms that stand for an operation. -/
def Encoded.wf : Encoded → Bool
  | .cmd w => cmdWordOk w
  | .size n => shortSize n
  | .uop c => uopCodeOk c
  | .prim u _ b => primOk u b

/-- An odd value (00_scope.md R6: "each with bit 0 = 1"). -/
def oddWord (v : Word) : Bool := v.getLsbD 0

end Sys2Proof
end

