-- ==== Sys2Proof/Decode.lean ====
section
/-! DEFINITION. Decoding of the four formats (30_encoding.md R91 to R94), total, every other code rejected by name, and
the encoder. -/

namespace Sys2Proof

/-- Why a form stands for no operation. -/
inductive Reject where
  /-- A word that is no valid command: ignored when written to `CMD` (30_encoding.md R97). -/
  | reservedCommand
  /-- A size above 16 selects no packing layout but the bulk path (30_encoding.md R92, R99). -/
  | bulkSize
  /-- `IDLE` is a value of `UPC`, not an operation (30_encoding.md R96). -/
  | idle
  /-- `PACK` names no operation without the size (30_encoding.md R93). -/
  | packNeedsSize
  /-- `UPC` 11 to 15 (30_encoding.md R98). -/
  | reservedUop
  /-- `UREQ` 110, 111 (30_encoding.md R98). -/
  | reservedRequest
  deriving DecidableEq, Repr

/-- Format C (30_encoding.md R91, R97). -/
def decodeCmd (w : Word) : Except Reject Instr :=
  if cmdRsv w ≠ 0 then .error .reservedCommand
  else if cmdOpc w = 0x01 then .ok .hash64
  else if cmdOpc w = 0x02 then .ok .hash32
  else .error .reservedCommand

/-- Format S, the 17-way selection on the whole 64-bit size (30_encoding.md R92). -/
def decodeSize (n : Word) : Except Reject Instr :=
  match n.toNat with
  | 0 => .ok .pack0
  | 1 => .ok .pack1
  | 2 => .ok .pack2
  | 3 => .ok .pack3
  | 4 => .ok .pack4
  | 5 => .ok .pack5
  | 6 => .ok .pack6
  | 7 => .ok .pack7
  | 8 => .ok .pack8
  | 9 => .ok .pack9
  | 10 => .ok .pack10
  | 11 => .ok .pack11
  | 12 => .ok .pack12
  | 13 => .ok .pack13
  | 14 => .ok .pack14
  | 15 => .ok .pack15
  | 16 => .ok .pack16
  | _ => .error .bulkSize

/-- Format U (30_encoding.md R93). -/
def decodeUop (c : BitVec 4) : Except Reject Instr :=
  match c.toNat with
  | 0 => .error .idle
  | 1 => .ok .salt
  | 2 => .error .packNeedsSize
  | 3 => .ok .binit
  | 4 => .ok .b32
  | 5 => .ok .bjoin
  | 6 => .ok .b16
  | 7 => .ok .tail
  | 8 => .ok .fin
  | 9 => .ok .fold32
  | 10 => .ok .ret
  | _ => .error .reservedUop

/-- Format P (30_encoding.md R94): bit 2 selects the unit, bits [1:0] of a reader are `log2` of its width. -/
def decodePrim (u : BitVec 3) (a b : Word) : Except Reject Instr :=
  match u.toNat with
  | 0 => .ok (.rd1 a)
  | 1 => .ok (.rd2 a)
  | 2 => .ok (.rd4 a)
  | 3 => .ok (.rd8 a)
  | 4 => .ok (.mum a b)
  | 5 => .ok (.mix a b)
  | _ => .error .reservedRequest

/-- The decoder: any encoded form gives an operation or the reason it stands for none. -/
def decode : Encoded → Except Reject Instr
  | .cmd w => decodeCmd w
  | .size n => decodeSize n
  | .uop c => decodeUop c
  | .prim u a b => decodePrim u a b

/-- The format U code of a value of `UPC` (10_state.md R35, 30_encoding.md R93). -/
def Upc.code : Upc → BitVec 4
  | .idle => 0
  | .salt => 1
  | .pack => 2
  | .binit => 3
  | .b32 => 4
  | .bjoin => 5
  | .b16 => 6
  | .tail => 7
  | .fin => 8
  | .fold32 => 9
  | .ret => 10

/-- The value of `UPC` with a given format U code; none for 11 to 15 (30_encoding.md R98). -/
def Upc.ofCode (c : BitVec 4) : Option Upc :=
  match c.toNat with
  | 0 => some .idle
  | 1 => some .salt
  | 2 => some .pack
  | 3 => some .binit
  | 4 => some .b32
  | 5 => some .bjoin
  | 6 => some .b16
  | 7 => some .tail
  | 8 => some .fin
  | 9 => some .fold32
  | 10 => some .ret
  | _ => none

/-- What the sequencer decodes: the µop code in `UPC`, and for `PACK` the size in `N` (30_encoding.md R92, R93). -/
def coreEncoding (u : Upc) (n : Word) : Encoded :=
  match u with
  | .pack => .size n
  | .idle => .uop 0
  | .salt => .uop 1
  | .binit => .uop 3
  | .b32 => .uop 4
  | .bjoin => .uop 5
  | .b16 => .uop 6
  | .tail => .uop 7
  | .fin => .uop 8
  | .fold32 => .uop 9
  | .ret => .uop 10

/-- The encoder, from the same tables (30_encoding.md R91 to R94). -/
def encode : Instr → Encoded
  | .hash64 => .cmd 0x0000000000000001
  | .hash32 => .cmd 0x0000000000000002
  | .salt => .uop 0b0001
  | .pack0 => .size 0
  | .pack1 => .size 1
  | .pack2 => .size 2
  | .pack3 => .size 3
  | .pack4 => .size 4
  | .pack5 => .size 5
  | .pack6 => .size 6
  | .pack7 => .size 7
  | .pack8 => .size 8
  | .pack9 => .size 9
  | .pack10 => .size 10
  | .pack11 => .size 11
  | .pack12 => .size 12
  | .pack13 => .size 13
  | .pack14 => .size 14
  | .pack15 => .size 15
  | .pack16 => .size 16
  | .binit => .uop 0b0011
  | .b32 => .uop 0b0100
  | .bjoin => .uop 0b0101
  | .b16 => .uop 0b0110
  | .tail => .uop 0b0111
  | .fin => .uop 0b1000
  | .fold32 => .uop 0b1001
  | .ret => .uop 0b1010
  | .rd1 a => .prim 0b000 a 0
  | .rd2 a => .prim 0b001 a 0
  | .rd4 a => .prim 0b010 a 0
  | .rd8 a => .prim 0b011 a 0
  | .mum a b => .prim 0b100 a b
  | .mix a b => .prim 0b101 a b

/-- The encoded form a table word of `nbits` bits stands for. 64 bits: a valid command word is format C, any other word
is format S. 4 bits: format U. 3 bits: format P. 8 bits (formats U and P rounded up to whole bytes): format U where the
code names a µop by itself, else format P (log 18). The operands of a primitive are the bits above `nbits`, so zero. -/
def tableEncoding (nbits w : Nat) : Option Encoded :=
  match nbits with
  | 64 => some (if cmdWordOk (BitVec.ofNat 64 w) then .cmd (BitVec.ofNat 64 w) else .size (BitVec.ofNat 64 w))
  | 4 => some (.uop (BitVec.ofNat 4 w))
  | 3 => some (.prim (BitVec.ofNat 3 w) 0 0)
  | 8 =>
    if w < 16 && uopCodeOk (BitVec.ofNat 4 w) then some (.uop (BitVec.ofNat 4 w))
    else if w < 8 then some (.prim (BitVec.ofNat 3 w) 0 0)
    else none
  | _ => none

/-- The instruction the decoder reads from a word of spec/opcode_table.json. -/
def decodeTableWord (nbits w : Nat) : Option Instr :=
  match tableEncoding nbits w with
  | some e => (decode e).toOption
  | none => none

end Sys2Proof
end

