-- ==== Sys2Proof/Machine/State.lean ====
section
/-! DEFINITION. The state of SPHASH-CORE/64 as plain data (10_state.md R20), the reasons a step can stop, and the state
after reset (R41, 70_reset_and_hazards.md R260). -/

namespace Sys2Proof.Machine

/-- The constant table `K[0..3]` (10_state.md R21). -/
structure ConstTable where
  k0 : Word
  k1 : Word
  k2 : Word
  k3 : Word
  deriving DecidableEq, Repr

/-- Where the host registers sit on the platform's bus: the parameters `REGBASE` and register stride (00_scope.md R5,
10_state.md R22; log 20). -/
structure RegMap where
  base : Word
  stride : Word
  deriving DecidableEq, Repr

/-- The input space (20_memory.md R60): the readable bytes, addresses strictly rising. An address that is not listed
holds no readable byte (R71: "never invents bytes"; log 4). -/
abbrev Memory := List Host.Cell

/-- One read request on the input space: `MemRead(addr, width)` (20_memory.md R62). -/
structure ReadReq where
  width : ReadWidth
  addr : Word
  deriving DecidableEq, Repr

/-- What the host can do to the block between two micro-operations (45_commands.md R211, 10_state.md R42). -/
inductive HostAction where
  /-- A whole-register write; register 0 is `CMD` (10_state.md R22, R23). -/
  | writeReg (reg : Nat) (w : Word)
  /-- A whole-register read (10_state.md R42). -/
  | readReg (reg : Nat)
  /-- An access narrower than 64 bits, or one that straddles two registers (10_state.md R42, U7). -/
  | partialReg (reg : Nat)
  /-- A read of the given width at a bus address (00_scope.md R5, 10_state.md R22; log 20). -/
  | busRead (x : Word) (width : ReadWidth)
  /-- A write of the given width at a bus address (00_scope.md R5, 10_state.md R22; log 20). -/
  | busWrite (x : Word) (width : ReadWidth) (w : Word)
  /-- A store of the host into its own memory, the input space (00_scope.md section 7, Host). -/
  | store (a : Word) (b : Byte)
  deriving DecidableEq, Repr

/-- Who moves next, and with what (log 9). -/
inductive Turn where
  /-- The core executes the µop that `UPC` names. -/
  | core
  /-- The host acts. -/
  | host (a : HostAction)
  /-- The platform applies reset (70_reset_and_hazards.md R260, R261). -/
  | reset
  /-- The model's own test port: one primitive request executed by itself (log 11). -/
  | prim (ureq : BitVec 3) (a b : Word)
  deriving DecidableEq, Repr

/-- The state of the block, its input space, and the model's own fields (INVENTORY.md, State). -/
structure State where
  /-- `K[0..3]`. -/
  k : ConstTable
  /-- The parameters `REGBASE` and register stride, wired by the platform: no step writes them (log 20). -/
  bus : RegMap
  /-- `STATUS.BUSY`. -/
  busy : Bool
  /-- `STATUS.DONE`. -/
  done : Bool
  /-- `SIZE`, host register 2. -/
  size : Word
  /-- `DATA`, host register 3. -/
  data : Word
  /-- `SEED`, host register 4. -/
  seed : Word
  /-- `RESULT`, host register 5. -/
  result : Word
  /-- `X0`. -/
  rX0 : Word
  /-- `X1`. -/
  rX1 : Word
  /-- `S`. -/
  rS : Word
  /-- `S0`. -/
  rS0 : Word
  /-- `S1`. -/
  rS1 : Word
  /-- `MA`. -/
  rMA : Word
  /-- `MB`. -/
  rMB : Word
  /-- `R`. -/
  rR : Word
  /-- `P`, the read cursor. -/
  rP : Word
  /-- `I`, the remaining byte count. -/
  rI : Word
  /-- `N`, the latched size. -/
  rN : Word
  /-- `OPL`, the latched operation: 0 for HASH64, 1 for HASH32. -/
  rOPL : BitVec 1
  /-- `UPC`. -/
  upc : Upc
  /-- The input space. -/
  mem : Memory
  /-- The model's own: the pending turns, oldest first (log 9). -/
  turns : List Turn
  /-- The model's own: what the host's last register read returned (log 12). -/
  hostRead : Word
  /-- The model's own: what a primitive executed as an instruction of its own returned (log 11). -/
  ret : Word
  /-- The model's own: the read requests issued since the last launch, in order (log 10). -/
  reads : List ReadReq
  /-- The model's own: how many free values have been drawn (log 8). -/
  freeIdx : Nat
  deriving DecidableEq, Repr

/-- The block raises no exception: "it never fails, throws, or returns an error indicator" (60_exceptions.md R230, R231).
The type has no constructor, so that no step can fault (log 27). -/
inductive Fault where
  deriving DecidableEq, Repr

/-- Why a step has no meaning. Each is a violated precondition of the host or an unreachable code; safe. -/
inductive Refusal where
  /-- An instruction the model gives no meaning; raised by `exec` only. Safe. -/
  | notModelled (mnemonic : String)
  /-- A launch with `DATA + SIZE > 2^64` (20_memory.md R69, U2); raised by HASH64 and HASH32. Safe. -/
  | windowWraps
  /-- A launch whose window is not wholly readable (20_memory.md R71, U1); raised by HASH64 and HASH32. Safe. -/
  | windowUnreadable
  /-- A read at an address that holds no byte (U1); raised by the readers and the µops that call them. Safe. -/
  | inputUnreadable
  /-- A host store that would change a byte of the window while `BUSY = 1` (20_memory.md R68, U3). Safe. -/
  | windowChanged
  /-- A host access that is not a whole-register access (10_state.md R42, U7). Safe. -/
  | partialAccess
  /-- `UPC = PACK` with `N > 16`, which no rule reaches (30_encoding.md R99, U10). Safe. -/
  | packSizeAbove16
  /-- `UREQ` 110 or 111, for which the spec defines no behaviour (30_encoding.md R98, U11). Safe. -/
  | reservedRequest
  deriving DecidableEq, Repr

/-- The machine right after reset (10_state.md R41, 70_reset_and_hazards.md R260). `RESULT` and the working registers are
unspecified there; they hold 0 here (DESIGN CHOICE, unsafe: log 2). -/
def State.reset : State where
  k := ⟨Config.k 0, Config.k 1, Config.k 2, Config.k 3⟩
  bus := ⟨Config.regBase, Config.regStride⟩
  busy := false
  done := false
  size := 0
  data := 0
  seed := 0
  result := 0
  rX0 := 0
  rX1 := 0
  rS := 0
  rS0 := 0
  rS1 := 0
  rMA := 0
  rMB := 0
  rR := 0
  rP := 0
  rI := 0
  rN := 0
  rOPL := 0
  upc := .idle
  mem := []
  turns := []
  hostRead := 0
  ret := 0
  reads := []
  freeIdx := 0

end Sys2Proof.Machine
end

