-- ==== Sys2Proof/Machine/Ops.lean ====
section
/-! DEFINITION. The named operations: the input space and its readers (20_memory.md), the exact product (40_mix.md), and
one update per group of registers that a rule writes together. The block has no exception to take and none to return from
(60_exceptions.md R230, R234, R235), so no operation here takes or leaves one. -/

namespace Sys2Proof.Machine

/-! ## The input space -/

/-- The byte at an address, if the address holds a readable one. -/
def Memory.byteAt : Memory → Nat → Option Byte
  | [], _ => none
  | (k, b) :: rest, a => if k = a then some b else Memory.byteAt rest a

/-- The memory after the host has put byte `b` at address `a` (the block itself never writes: 20_memory.md R61). -/
def Memory.store : Memory → Nat → Byte → Memory
  | [], a, b => [(a, b)]
  | (k, c) :: rest, a, b =>
    if a < k then (a, b) :: (k, c) :: rest
    else if a = k then (a, b) :: rest
    else (k, c) :: Memory.store rest a b

/-- Addresses strictly rising from `lo` and below `2^64`. -/
def Memory.wfFrom : Nat → Memory → Bool
  | _, [] => true
  | lo, (k, _) :: rest => decide (lo ≤ k) && decide (k < 2 ^ 64) && Memory.wfFrom (k + 1) rest

/-- The canonical form: addresses strictly rising, inside the 64-bit input space. An unlisted address holds nothing, so
no entry can equal what an unlisted address reads as. -/
def Memory.wf (m : Memory) : Bool := Memory.wfFrom 0 m

/-- Every address from `lo` up to but not including `hi` holds a byte, read off a list with rising addresses in one walk. -/
def Memory.covers : Memory → Nat → Nat → Bool
  | [], lo, hi => decide (hi ≤ lo)
  | (k, _) :: rest, lo, hi =>
    if hi ≤ lo then true
    else if k < lo then Memory.covers rest lo hi
    else if k = lo then Memory.covers rest (lo + 1) hi
    else false

/-- `MemRead(addr, n)`: the `n` bytes from `addr` up (20_memory.md R62); addresses are formed in 64-bit arithmetic (R69; log 17). -/
def memRead (m : Memory) : Word → Nat → Option (List Byte)
  | _, 0 => some []
  | a, n + 1 =>
    match m.byteAt a.toNat, memRead m (a + 1) n with
    | some b, some bs => some (b :: bs)
    | _, _ => none

/-- `LE(b_0, …)`: little-endian assembly, zero-extended to 64 bits; of no bytes it is 0 (00_scope.md R8, R9 and section 6). -/
def le : List Byte → Word
  | [] => 0
  | b :: bs => b.zeroExtend 64 ||| (le bs <<< 8)

/-- The number of bytes of a reader. -/
def ReadWidth.bytes : ReadWidth → Nat
  | .w1 => 1
  | .w2 => 2
  | .w4 => 4
  | .w8 => 8

/-- `RDn(a) = zext_64(LE(MemRead(a, n)))` (20_memory.md R62, 41_byte_readers.md R134), as a value. -/
def rd (m : Memory) (w : ReadWidth) (a : Word) : Option Word :=
  (memRead m a (ReadWidth.bytes w)).map le

/-! ## The product -/

/-- `MUL128(a, b)`: the low and the high half of the exact unsigned product (40_mix.md R120). -/
def mul128 (a b : Word) : Word × Word :=
  let p := a.toNat * b.toNat
  (BitVec.ofNat 64 p, BitVec.ofNat 64 (p / 2 ^ 64))

/-- The folded product `lo ^ hi`, as a value (40_mix.md R122). -/
def mixVal (a b : Word) : Word := (mul128 a b).1 ^^^ (mul128 a b).2

/-! ## Register updates -/

/-- `MUM(a, b)` (40_mix.md R121): the pair is loaded with the operands and replaced in place by the product's halves. -/
def State.mum (a b : Word) (s : State) : State :=
  let s1 := { s with rMA := a, rMB := b }
  let p := mul128 s1.rMA s1.rMB
  { s1 with rMA := p.1, rMB := p.2 }

/-- What MIX returns after MUM: `MA ^ MB` (40_mix.md R122, step 2). -/
def State.mixOut (s : State) : Word := s.rMA ^^^ s.rMB

/-- Both lanes are written (10_state.md R29). -/
def State.setLanes (x0 x1 : Word) (s : State) : State := { s with rX0 := x0, rX1 := x1 }

/-- The seed accumulator is written (10_state.md R30). -/
def State.setS (v : Word) (s : State) : State := { s with rS := v }

/-- The bulk accumulators are written (10_state.md R31). -/
def State.setBulk (v0 v1 : Word) (s : State) : State := { s with rS0 := v0, rS1 := v1 }

/-- The result working register is written (10_state.md R36). -/
def State.setR (v : Word) (s : State) : State := { s with rR := v }

/-- The cursor and the remaining count move by a chunk (10_state.md R33). -/
def State.advance (d : Word) (s : State) : State := { s with rP := s.rP + d, rI := s.rI - d }

/-- `UPC <- u` (10_state.md R35). -/
def State.goto (u : Upc) (s : State) : State := { s with upc := u }

/-- Read requests are issued on the input space (20_memory.md R66, R77; log 10). -/
def State.logReads (l : List ReadReq) (s : State) : State := { s with reads := s.reads ++ l }

/-- The value a primitive executed by itself returns (log 11). -/
def State.setRet (v : Word) (s : State) : State := { s with ret := v }

/-- The operands are latched at a launch (45_commands.md R200): every register of that rule but the flags and `UPC`. The
read requests of the new command begin (log 10). -/
def State.latch (opl : BitVec 1) (s : State) : State :=
  { s with rOPL := opl, rN := s.size, rI := s.size, rP := s.data, rS := s.seed, reads := [] }

/-- `RESULT <- R` (45_commands.md R204). -/
def State.publish (s : State) : State := { s with result := s.rR }

/-- The turn at the head of the queue is taken. -/
def State.takeTurn (s : State) : State := { s with turns := s.turns.tail }

/-! ## Host registers and the platform's reset -/

/-- The word a host register read returns to the host (10_state.md R42; log 12). -/
def State.setHostRead (v : Word) (s : State) : State := { s with hostRead := v }

/-- The free value that the next draw gives (log 8). -/
def State.freeNow (s : State) (j : Nat) : Word := Config.freeValue (s.freeIdx + j)

/-- `j` free values have been drawn. -/
def State.drawn (j : Nat) (s : State) : State := { s with freeIdx := s.freeIdx + j }

/-- `SIZE <- w` by the host (10_state.md R25). -/
def State.setSize (w : Word) (s : State) : State := { s with size := w }

/-- `DATA <- w` by the host (10_state.md R26). -/
def State.setData (w : Word) (s : State) : State := { s with data := w }

/-- `SEED <- w` by the host (10_state.md R27). -/
def State.setSeed (w : Word) (s : State) : State := { s with seed := w }

/-- The host's memory changes. -/
def State.setMem (m : Memory) (s : State) : State := { s with mem := m }

/-- Reset of the block (10_state.md R41, 70_reset_and_hazards.md R260, R261): a running command is abandoned, the stated
registers take their values, every register the rule calls unspecified takes a free value (log 3). The constant table,
the host's memory and the model's own queue and read log are no registers of the block and stay. -/
def State.blockReset (s : State) : State :=
  { s with
    upc := .idle, busy := false, done := false, size := 0, data := 0, seed := 0
    result := s.freeNow 0, rX0 := s.freeNow 1, rX1 := s.freeNow 2, rS := s.freeNow 3, rS0 := s.freeNow 4
    rS1 := s.freeNow 5, rMA := s.freeNow 6, rMB := s.freeNow 7, rR := s.freeNow 8, rP := s.freeNow 9
    rI := s.freeNow 10, rN := s.freeNow 11, rOPL := (s.freeNow 12).extractLsb' 0 1, freeIdx := s.freeIdx + 13 }

end Sys2Proof.Machine
end

