-- ==== Sys2Proof/Machine/Flags.lean ====
section
/-! DEFINITION. The only flags are `STATUS.BUSY` and `STATUS.DONE` (10_state.md R24, R37): no operation of the block has a
carry, overflow, zero or sign flag. And the size tests that choose the successor µop (45_commands.md R205). -/

namespace Sys2Proof.Machine

/-- `STATUS` as the host reads it: `BUSY` in bit 0, `DONE` in bit 1, bits [63:2] read 0 (10_state.md R24). -/
def State.status (s : State) : Word :=
  (if s.busy then 1 else 0) ||| (if s.done then 2 else 0)

/-- The flags at a launch: `BUSY <- 1`, `DONE <- 0` (45_commands.md R200). -/
def State.flagsLaunch (s : State) : State := { s with busy := true, done := false }

/-- The flags at RET: `BUSY <- 0`, `DONE <- 1` (45_commands.md R204). -/
def State.flagsDone (s : State) : State := { s with busy := false, done := true }

/-- After SALT: `N <= 16` goes to PACK, a larger size to BINIT; the comparison is on all 64 bits (45_commands.md R203). -/
def afterSalt (n : Word) : Upc := if n.toNat ≤ 16 then .pack else .binit

/-- After BINIT (43_bulk_folder.md R170). -/
def afterBinit (i : Word) : Upc := if i.toNat > 32 then .b32 else if i.toNat > 16 then .b16 else .tail

/-- After B32, on the new `I`: strictly greater than 32 loops (43_bulk_folder.md R171). -/
def afterB32 (i : Word) : Upc := if i.toNat > 32 then .b32 else .bjoin

/-- After BJOIN (43_bulk_folder.md R172). -/
def afterBjoin (i : Word) : Upc := if i.toNat > 16 then .b16 else .tail

/-- After B16, on the new `I` (43_bulk_folder.md R173). -/
def afterB16 (i : Word) : Upc := if i.toNat > 16 then .b16 else .tail

/-- After FIN: FOLD32 for HASH32, RET for HASH64 (44_finalizer.md R190). -/
def afterFin (opl : BitVec 1) : Upc := if opl = 1 then .fold32 else .ret

end Sys2Proof.Machine
end

