-- ==== Sys2Proof/Machine/Operands.lean ====
section
/-! DEFINITION. The operand forms: addresses are "cursor plus constant" (41_byte_readers.md R135), the tail's addresses are
back-computed (43_bulk_folder.md R174), and a lane is assembled from reads shifted into byte positions (42_short_dispatch.md R141). -/

namespace Sys2Proof.Machine

/-- `P + c`, in 64-bit arithmetic (20_memory.md R69). -/
def State.cursor (s : State) (c : Nat) : Word := s.rP + BitVec.ofNat 64 c

/-- `P + I - c`, in 64-bit arithmetic (20_memory.md R69). -/
def State.fromEnd (s : State) (c : Nat) : Word := s.rP + s.rI - BitVec.ofNat 64 c

/-- The base of the launched window: `P + I = BASE + N` throughout a command (43_bulk_folder.md R176). -/
def State.windowBase (s : State) : Word := s.rP + s.rI - s.rN

/-- An address lies in the launched window `[BASE, BASE + N)` (20_memory.md R65). -/
def State.inWindow (s : State) (a : Word) : Bool := decide ((a - s.windowBase).toNat < s.rN.toNat)

/-- One term of a lane's formula: `RDw(P + offset) << shift` (42_short_dispatch.md R142 to R158). -/
structure Piece where
  width : ReadWidth
  offset : Nat
  shift : Nat
  deriving DecidableEq, Repr

/-- The value of a lane: the OR of its terms, 0 for a lane with none. -/
def lane (m : Memory) (p : Word) : List Piece → Option Word
  | [] => some 0
  | q :: rest =>
    match rd m q.width (p + BitVec.ofNat 64 q.offset), lane m p rest with
    | some v, some r => some ((v <<< q.shift) ||| r)
    | _, _ => none

/-- The read requests of a lane's terms, in their order (20_memory.md R77). -/
def laneReads (p : Word) (l : List Piece) : List ReadReq :=
  l.map fun q => ⟨q.width, p + BitVec.ofNat 64 q.offset⟩

end Sys2Proof.Machine
end

