-- ==== Sys2Proof/Machine/BulkFolder.lean ====
section
/-! DEFINITION. The bulk folder (43_bulk_folder.md R170 to R174). A µop run outside its precondition does its pseudocode in
64-bit arithmetic (log 14). -/

namespace Sys2Proof.Machine

/-- `BINIT` (43_bulk_folder.md R170): both bulk accumulators copy the salted seed; the first loop's head test. -/
def execBinit (s : State) : Host.Outcome State Fault Refusal :=
  .next ((s.setBulk s.rS s.rS).goto (afterBinit s.rI))

/-- `B32` (43_bulk_folder.md R171): one 32-byte chunk. The two mixes run in the order the rule lists them, so `MA`, `MB`
are left with the second product (log 15). -/
def execB32 (s : State) : Host.Outcome State Fault Refusal :=
  match rd s.mem .w8 (s.cursor 0), rd s.mem .w8 (s.cursor 8), rd s.mem .w8 (s.cursor 16), rd s.mem .w8 (s.cursor 24) with
  | some v0, some v1, some v2, some v3 =>
    let s1 := s.mum (v0 ^^^ s.k.k2) (v1 ^^^ s.rS0)
    let s2 := s1.mum (v2 ^^^ s.k.k3) (v3 ^^^ s.rS1)
    let s3 := (s2.setBulk s1.mixOut s2.mixOut).advance 32
    .next ((s3.logReads [⟨.w8, s.cursor 0⟩, ⟨.w8, s.cursor 8⟩, ⟨.w8, s.cursor 16⟩, ⟨.w8, s.cursor 24⟩]).goto (afterB32 s3.rI))
  | _, _, _, _ => .refused .inputUnreadable

/-- `BJOIN` (43_bulk_folder.md R172): the running seed becomes `S0 ^ S1`. -/
def execBjoin (s : State) : Host.Outcome State Fault Refusal :=
  .next ((s.setS (s.rS0 ^^^ s.rS1)).goto (afterBjoin s.rI))

/-- `B16` (43_bulk_folder.md R173): one 16-byte chunk into the running seed. -/
def execB16 (s : State) : Host.Outcome State Fault Refusal :=
  match rd s.mem .w8 (s.cursor 0), rd s.mem .w8 (s.cursor 8) with
  | some v0, some v1 =>
    let s1 := s.mum (v0 ^^^ s.k.k1) (v1 ^^^ s.rS)
    let s2 := (s1.setS s1.mixOut).advance 16
    .next ((s2.logReads [⟨.w8, s.cursor 0⟩, ⟨.w8, s.cursor 8⟩]).goto (afterB16 s2.rI))
  | _, _ => .refused .inputUnreadable

/-- `TAIL` (43_bulk_folder.md R174): the last 16 bytes of the window, back-computed, into the lanes. -/
def execTail (s : State) : Host.Outcome State Fault Refusal :=
  match rd s.mem .w8 (s.fromEnd 16), rd s.mem .w8 (s.fromEnd 8) with
  | some v0, some v1 =>
    .next (((s.setLanes v0 v1).logReads [⟨.w8, s.fromEnd 16⟩, ⟨.w8, s.fromEnd 8⟩]).goto .fin)
  | _, _ => .refused .inputUnreadable

end Sys2Proof.Machine
end

