-- ==== Sys2Proof/Machine/Commands.lean ====
section
/-! DEFINITION. The host commands, the launch, and the µops that open and close a command (45_commands.md R200 to R204). -/

namespace Sys2Proof.Machine

/-- The launch (45_commands.md R200). While `BUSY = 1` the write does nothing (10_state.md R43). A window that wraps or is
not wholly readable has no meaning and is refused (20_memory.md R69, R71, 70_reset_and_hazards.md R266; log 5); of a
window of no bytes nothing is required, whatever `DATA` is (R266). -/
def launch (opl : BitVec 1) (s : State) : Host.Outcome State Fault Refusal :=
  if s.busy then .next s
  else if s.data.toNat + s.size.toNat > 2 ^ 64 then .refused .windowWraps
  else if !s.mem.covers s.data.toNat (s.data.toNat + s.size.toNat) then .refused .windowUnreadable
  else .next (((s.latch opl).flagsLaunch).goto .salt)

/-- `HASH64` (45_commands.md R201): the launch with `OPL = 0`; the µops that follow compute the hash. -/
def execHash64 (s : State) : Host.Outcome State Fault Refusal := launch 0 s

/-- `HASH32` (45_commands.md R202): the launch with `OPL = 1`. -/
def execHash32 (s : State) : Host.Outcome State Fault Refusal := launch 1 s

/-- `SALT` (45_commands.md R203): the seed is salted with `K[0]`, the path is chosen by the size. -/
def execSalt (s : State) : Host.Outcome State Fault Refusal :=
  .next ((s.setS (s.rS ^^^ s.k.k0)).goto (afterSalt s.rN))

/-- `RET` (45_commands.md R204): the result becomes visible and the block becomes idle in one step. -/
def execRet (s : State) : Host.Outcome State Fault Refusal :=
  .next ((s.publish.flagsDone).goto .idle)

end Sys2Proof.Machine
end

