-- ==== Sys2Proof/Machine/Finalizer.lean ====
section
/-! DEFINITION. The finalizer (44_finalizer.md R190, R191). -/

namespace Sys2Proof.Machine

/-- The 32-bit fold `zext_64(trunc_32(r - (r >> 32)))` (44_finalizer.md R191): subtraction modulo `2^64`, logical shift. -/
def fold32Val (r : Word) : Word := ((r - (r >>> 32)).truncate 32).zeroExtend 64

/-- `FIN` (44_finalizer.md R190): two nested mixes, the inner one first. -/
def execFin (s : State) : Host.Outcome State Fault Refusal :=
  let s1 := s.mum (s.rX0 ^^^ s.k.k1) (s.rX1 ^^^ s.rS)
  let s2 := s1.mum (s.k.k1 ^^^ s.rN) s1.mixOut
  .next ((s2.setR s2.mixOut).goto (afterFin s.rOPL))

/-- `FOLD32` (44_finalizer.md R191). -/
def execFold32 (s : State) : Host.Outcome State Fault Refusal :=
  .next ((s.setR (fold32Val s.rR)).goto .ret)

end Sys2Proof.Machine
end

