-- ==== Sys2Proof/Machine/Mixer.lean ====
section
/-! DEFINITION. The multiply-mix primitive as operations of their own (40_mix.md R121, R122): pure and total (R125). -/

namespace Sys2Proof.Machine

/-- `MUM(a, b)` (40_mix.md R121): `MA`, `MB` hold the low and the high half, and the pair is what it returns. The pair is
twice the width of `ret`, which keeps its value. -/
def execMum (a b : Word) (s : State) : Host.Outcome State Fault Refusal := .next (s.mum a b)

/-- `MIX(a, b)` (40_mix.md R122): MUM, then `MA ^ MB` is returned, here into the model's own `ret` (log 11). -/
def execMix (a b : Word) (s : State) : Host.Outcome State Fault Refusal :=
  let s1 := s.mum a b
  .next (s1.setRet s1.mixOut)

end Sys2Proof.Machine
end

