-- ==== Sys2Proof/Machine/Readers.lean ====
section
/-! DEFINITION. The byte readers as operations of their own (41_byte_readers.md R130 to R134). -/

namespace Sys2Proof.Machine

/-- A reader of width `w` at address `a` (41_byte_readers.md R134): one read request, the value returned, no register and
no flag written. Where the value goes is the caller's: here the model's own `ret` (log 11). -/
def reader (w : ReadWidth) (a : Word) (s : State) : Host.Outcome State Fault Refusal :=
  match rd s.mem w a with
  | some v => .next ((s.logReads [⟨w, a⟩]).setRet v)
  | none => .refused .inputUnreadable

/-- `RD1(a)` (41_byte_readers.md R130). -/
def execRd1 (a : Word) (s : State) : Host.Outcome State Fault Refusal := reader .w1 a s

/-- `RD2(a)` (41_byte_readers.md R131). -/
def execRd2 (a : Word) (s : State) : Host.Outcome State Fault Refusal := reader .w2 a s

/-- `RD4(a)` (41_byte_readers.md R132). -/
def execRd4 (a : Word) (s : State) : Host.Outcome State Fault Refusal := reader .w4 a s

/-- `RD8(a)` (41_byte_readers.md R133). -/
def execRd8 (a : Word) (s : State) : Host.Outcome State Fault Refusal := reader .w8 a s

end Sys2Proof.Machine
end

