-- ==== Sys2Proof/Machine/ShortDispatch.lean ====
section
/-! DEFINITION. The short-input dispatcher (42_short_dispatch.md): one layout per size 0 to 16, each written out from its
own rule as the terms `RDw(P + offset) << shift` of the two lanes, in the order of the reads (R141). -/

namespace Sys2Proof.Machine

/-- A packing layout: both lanes are filled from their terms, the reads are issued in order, control goes to FIN
(42_short_dispatch.md R140, R141). -/
def packWith (l0 l1 : List Piece) (s : State) : Host.Outcome State Fault Refusal :=
  match lane s.mem s.rP l0, lane s.mem s.rP l1 with
  | some x0, some x1 => .next (((s.setLanes x0 x1).logReads (laneReads s.rP (l0 ++ l1))).goto .fin)
  | _, _ => .refused .inputUnreadable

/-- `PACK.0` (42_short_dispatch.md R142). -/
def execPack0 (s : State) : Host.Outcome State Fault Refusal :=
  packWith [] [] s

/-- `PACK.1` (42_short_dispatch.md R143). -/
def execPack1 (s : State) : Host.Outcome State Fault Refusal :=
  packWith [⟨.w1, 0, 0⟩] [] s

/-- `PACK.2` (42_short_dispatch.md R144). -/
def execPack2 (s : State) : Host.Outcome State Fault Refusal :=
  packWith [⟨.w2, 0, 0⟩] [] s

/-- `PACK.3` (42_short_dispatch.md R145). -/
def execPack3 (s : State) : Host.Outcome State Fault Refusal :=
  packWith [⟨.w2, 0, 0⟩, ⟨.w1, 2, 16⟩] [] s

/-- `PACK.4` (42_short_dispatch.md R146). -/
def execPack4 (s : State) : Host.Outcome State Fault Refusal :=
  packWith [⟨.w4, 0, 0⟩] [] s

/-- `PACK.5` (42_short_dispatch.md R147). -/
def execPack5 (s : State) : Host.Outcome State Fault Refusal :=
  packWith [⟨.w4, 0, 0⟩] [⟨.w1, 4, 0⟩] s

/-- `PACK.6` (42_short_dispatch.md R148). -/
def execPack6 (s : State) : Host.Outcome State Fault Refusal :=
  packWith [⟨.w4, 0, 0⟩] [⟨.w1, 4, 0⟩, ⟨.w1, 5, 8⟩] s

/-- `PACK.7` (42_short_dispatch.md R149). -/
def execPack7 (s : State) : Host.Outcome State Fault Refusal :=
  packWith [⟨.w4, 0, 0⟩] [⟨.w1, 4, 0⟩, ⟨.w1, 5, 8⟩, ⟨.w1, 6, 16⟩] s

/-- `PACK.8` (42_short_dispatch.md R150). -/
def execPack8 (s : State) : Host.Outcome State Fault Refusal :=
  packWith [⟨.w4, 0, 0⟩] [⟨.w1, 4, 0⟩, ⟨.w1, 5, 8⟩, ⟨.w1, 6, 16⟩, ⟨.w1, 7, 24⟩] s

/-- `PACK.9` (42_short_dispatch.md R151). -/
def execPack9 (s : State) : Host.Outcome State Fault Refusal :=
  packWith [⟨.w8, 0, 0⟩] [⟨.w1, 8, 0⟩] s

/-- `PACK.10` (42_short_dispatch.md R152). -/
def execPack10 (s : State) : Host.Outcome State Fault Refusal :=
  packWith [⟨.w8, 0, 0⟩] [⟨.w1, 8, 0⟩, ⟨.w1, 9, 8⟩] s

/-- `PACK.11` (42_short_dispatch.md R153). -/
def execPack11 (s : State) : Host.Outcome State Fault Refusal :=
  packWith [⟨.w8, 0, 0⟩] [⟨.w1, 8, 0⟩, ⟨.w1, 9, 8⟩, ⟨.w1, 10, 16⟩] s

/-- `PACK.12` (42_short_dispatch.md R154). -/
def execPack12 (s : State) : Host.Outcome State Fault Refusal :=
  packWith [⟨.w8, 0, 0⟩] [⟨.w1, 8, 0⟩, ⟨.w1, 9, 8⟩, ⟨.w1, 10, 16⟩, ⟨.w1, 11, 24⟩] s

/-- `PACK.13` (42_short_dispatch.md R155). -/
def execPack13 (s : State) : Host.Outcome State Fault Refusal :=
  packWith [⟨.w8, 0, 0⟩] [⟨.w1, 8, 0⟩, ⟨.w1, 9, 8⟩, ⟨.w1, 10, 16⟩, ⟨.w1, 11, 24⟩, ⟨.w1, 12, 32⟩] s

/-- `PACK.14` (42_short_dispatch.md R156). -/
def execPack14 (s : State) : Host.Outcome State Fault Refusal :=
  packWith [⟨.w8, 0, 0⟩] [⟨.w1, 8, 0⟩, ⟨.w1, 9, 8⟩, ⟨.w1, 10, 16⟩, ⟨.w1, 11, 24⟩, ⟨.w1, 12, 32⟩, ⟨.w1, 13, 40⟩] s

/-- `PACK.15` (42_short_dispatch.md R157). -/
def execPack15 (s : State) : Host.Outcome State Fault Refusal :=
  packWith [⟨.w8, 0, 0⟩]
    [⟨.w1, 8, 0⟩, ⟨.w1, 9, 8⟩, ⟨.w1, 10, 16⟩, ⟨.w1, 11, 24⟩,
      ⟨.w1, 12, 32⟩, ⟨.w1, 13, 40⟩, ⟨.w1, 14, 48⟩] s

/-- `PACK.16` (42_short_dispatch.md R158). -/
def execPack16 (s : State) : Host.Outcome State Fault Refusal :=
  packWith [⟨.w8, 0, 0⟩]
    [⟨.w1, 8, 0⟩, ⟨.w1, 9, 8⟩, ⟨.w1, 10, 16⟩, ⟨.w1, 11, 24⟩,
      ⟨.w1, 12, 32⟩, ⟨.w1, 13, 40⟩, ⟨.w1, 14, 48⟩, ⟨.w1, 15, 56⟩] s

end Sys2Proof.Machine
end

