-- ==== Sys2Proof/Machine/Dispatch.lean ====
section
/-! DEFINITION. One arm per constructor of Instr, each one direct call of its meaning. -/

namespace Sys2Proof.Machine

def exec (i : Instr) (s : State) : Host.Outcome State Fault Refusal :=
  match i with
  | .hash64 => Sys2Proof.Machine.execHash64 s
  | .hash32 => Sys2Proof.Machine.execHash32 s
  | .salt => Sys2Proof.Machine.execSalt s
  | .pack0 => Sys2Proof.Machine.execPack0 s
  | .pack1 => Sys2Proof.Machine.execPack1 s
  | .pack2 => Sys2Proof.Machine.execPack2 s
  | .pack3 => Sys2Proof.Machine.execPack3 s
  | .pack4 => Sys2Proof.Machine.execPack4 s
  | .pack5 => Sys2Proof.Machine.execPack5 s
  | .pack6 => Sys2Proof.Machine.execPack6 s
  | .pack7 => Sys2Proof.Machine.execPack7 s
  | .pack8 => Sys2Proof.Machine.execPack8 s
  | .pack9 => Sys2Proof.Machine.execPack9 s
  | .pack10 => Sys2Proof.Machine.execPack10 s
  | .pack11 => Sys2Proof.Machine.execPack11 s
  | .pack12 => Sys2Proof.Machine.execPack12 s
  | .pack13 => Sys2Proof.Machine.execPack13 s
  | .pack14 => Sys2Proof.Machine.execPack14 s
  | .pack15 => Sys2Proof.Machine.execPack15 s
  | .pack16 => Sys2Proof.Machine.execPack16 s
  | .binit => Sys2Proof.Machine.execBinit s
  | .b32 => Sys2Proof.Machine.execB32 s
  | .bjoin => Sys2Proof.Machine.execBjoin s
  | .b16 => Sys2Proof.Machine.execB16 s
  | .tail => Sys2Proof.Machine.execTail s
  | .fin => Sys2Proof.Machine.execFin s
  | .fold32 => Sys2Proof.Machine.execFold32 s
  | .ret => Sys2Proof.Machine.execRet s
  | .rd1 a => Sys2Proof.Machine.execRd1 a s
  | .rd2 a => Sys2Proof.Machine.execRd2 a s
  | .rd4 a => Sys2Proof.Machine.execRd4 a s
  | .rd8 a => Sys2Proof.Machine.execRd8 a s
  | .mum a b => Sys2Proof.Machine.execMum a b s
  | .mix a b => Sys2Proof.Machine.execMix a b s

end Sys2Proof.Machine
end

