-- ==== Sys2Proof/Machine/HostPort.lean ====
section
/-! DEFINITION. The host's accesses other than a command written to `CMD` (10_state.md R22 to R28, R42, R43), and its
stores into its own buffer (70_reset_and_hazards.md R265). -/

namespace Sys2Proof.Machine

/-- A whole-register write to a register other than `CMD`: 2, 3 and 4 take the word, also while a command runs (10_state.md
R43); a write to 1, 5 or a number above 5 is ignored (R22, R24, R28). -/
def writeRegister (reg : Nat) (w : Word) (s : State) : State :=
  match reg with
  | 2 => s.setSize w
  | 3 => s.setData w
  | 4 => s.setSeed w
  | _ => s

/-- A read whose value the spec calls unspecified returns a free value, a new one each time (U8, U9; log 8). -/
def readUnspecified (s : State) : State := (s.setHostRead (s.freeNow 0)).drawn 1

/-- A whole-register read (10_state.md R42): no side effect on the block. `RESULT` is meaningful only while `DONE = 1`
(R28); register 0 and numbers above 5 return an unspecified value (R22, R23). -/
def readRegister (reg : Nat) (s : State) : State :=
  match reg with
  | 1 => s.setHostRead s.status
  | 2 => s.setHostRead s.size
  | 3 => s.setHostRead s.data
  | 4 => s.setHostRead s.seed
  | 5 => if s.done then s.setHostRead s.result else readUnspecified s
  | _ => readUnspecified s

/-! ## The platform's bus (00_scope.md R5, 10_state.md R22; log 20) -/

/-- The bus address of host register `n`: `REGBASE + n * stride`, in 64-bit arithmetic. -/
def RegMap.addr (m : RegMap) (n : Nat) : Word := m.base + BitVec.ofNat 64 n * m.stride

/-- An access of the given width at bus address `x` meets one of the 8 bytes of register `n`. -/
def RegMap.touches (m : RegMap) (x : Word) (width : ReadWidth) (n : Nat) : Bool :=
  decide ((x - m.addr n).toNat < 8) || decide ((m.addr n - x).toNat < ReadWidth.bytes width)

/-- The register number that a bus access names: that of the one register it covers exactly. An access that meets none of
the six registers names no register of the block, so a number above 5 (R22); one that is narrower than a register or
meets two is not a whole-register access and names none (R42, U7). -/
def RegMap.number (m : RegMap) (x : Word) (width : ReadWidth) : Option Nat :=
  match (List.range 6).filter (m.touches x width) with
  | [] => some 6
  | [n] => if x = m.addr n ∧ width = .w8 then some n else none
  | _ => none

/-- The register number and the word of a host write, whether it goes by number or by bus address. -/
def HostAction.written (m : RegMap) : HostAction → Option (Nat × Word)
  | .writeReg n w => some (n, w)
  | .busWrite x width w => (m.number x width).map fun n => (n, w)
  | _ => none

/-! ## The host's memory -/

/-- A host store into the input space. One that would change a byte of the window while `BUSY = 1` has no meaning
(20_memory.md R68, 70_reset_and_hazards.md R265, U3; log 6). -/
def hostStore (a : Word) (b : Byte) (s : State) : Host.Outcome State Fault Refusal :=
  if s.busy && s.inWindow a && s.mem.byteAt a.toNat != some b then .refused .windowChanged
  else .next (s.setMem (s.mem.store a.toNat b))

end Sys2Proof.Machine
end

