-- ==== Sys2Proof/Machine/Sequencer.lean ====
section
/-! DEFINITION. Who moves next and what it does (45_commands.md R205, R211; log 9, 13): the core executes the µop that `UPC`
names, the host accesses a register, the platform resets, or the model's test port requests one primitive. -/

namespace Sys2Proof.Machine

/-- The core's turn: the operation that `UPC` and, for PACK, `N` encode is executed; at `IDLE` the core has no step and
the block keeps everything (60_exceptions.md R241). -/
def coreTurn (s : State) : Host.Outcome State Fault Refusal :=
  match decode (coreEncoding s.upc s.rN) with
  | .ok i => exec i s
  | .error .idle => .next s
  | .error _ => .refused .packSizeAbove16

/-- A whole-register write. A write to `CMD` is decoded at once as format C: a valid word is that command, any other is
ignored (10_state.md R23, 30_encoding.md R97). -/
def writeTurn (n : Nat) (w : Word) (s : State) : Host.Outcome State Fault Refusal :=
  match n with
  | 0 =>
    match decode (.cmd w) with
    | .ok i => exec i s
    | .error _ => .next s
  | n + 1 => .next (writeRegister (n + 1) w s)

/-- The host's turn. An access on the platform's bus is the access to the register it names (00_scope.md R5, 10_state.md
R22; log 20). A partial access has no meaning (10_state.md R42, U7; log 7). -/
def hostTurn (a : HostAction) (s : State) : Host.Outcome State Fault Refusal :=
  match a with
  | .writeReg n w => writeTurn n w s
  | .readReg n => .next (readRegister n s)
  | .partialReg _ => .refused .partialAccess
  | .busRead x width =>
    match s.bus.number x width with
    | some n => .next (readRegister n s)
    | none => .refused .partialAccess
  | .busWrite x width w =>
    match s.bus.number x width with
    | some n => writeTurn n w s
    | none => .refused .partialAccess
  | .store a b => hostStore a b s

/-- A request on the test port: the primitive is executed by itself (log 11). -/
def primTurn (u : BitVec 3) (a b : Word) (s : State) : Host.Outcome State Fault Refusal :=
  match decode (.prim u a b) with
  | .ok i => exec i s
  | .error _ => .refused .reservedRequest

/-- One step: the turn at the head of the queue, or the core's when the queue is empty. -/
def nextTurn (s : State) : Host.Outcome State Fault Refusal :=
  match s.turns with
  | [] => coreTurn s
  | .core :: _ => coreTurn s.takeTurn
  | .host a :: _ => hostTurn a s.takeTurn
  | .reset :: _ => .next s.takeTurn.blockReset
  | .prim u a b :: _ => primTurn u a b s.takeTurn

/-- The queue after which the core moves next: an empty queue already gives it the step. -/
def coreNext : List Turn → List Turn
  | [] => []
  | t :: rest => .core :: t :: rest

/-- The state in which the next step executes the operation of an encoded form, and nothing else differs: a command word
is written to `CMD`, a size stands in `N` with `UPC` at `PACK`, a µop code stands in `UPC`, a primitive is requested. -/
def placeEncoded (e : Encoded) (s : State) : State :=
  match e with
  | .cmd w => { s with turns := .host (.writeReg 0 w) :: s.turns }
  | .size n => { s with upc := .pack, rN := n, turns := coreNext s.turns }
  | .uop c =>
    match Upc.ofCode c with
    | some u => { s with upc := u, turns := coreNext s.turns }
    | none => s
  | .prim u a b => { s with turns := .prim u a b :: s.turns }

end Sys2Proof.Machine
end

