-- ==== Sys2Proof/Machine/HashFunction.lean ====
section
/-! DEFINITION. What a command computes, as a function of the constants, the buffer and the seed, with no machine state:
42_short_dispatch.md R141, 43_bulk_folder.md R175 and R177, 45_commands.md R206, and the counts and the access list of
45_commands.md R205 and 20_memory.md R66. The step does not call these; the statements compare it with them. -/

namespace Sys2Proof.Machine

/-- The head width `h(n)` of a short input (42_short_dispatch.md R141). -/
def headWidth (n : Nat) : Nat := if n ≤ 3 then n else if n ≤ 8 then 4 else 8

/-- `PACK(n)` of a buffer of length `n`: the lanes `X0`, `X1` (42_short_dispatch.md R141). -/
def packLanes (buf : List Byte) : Word × Word :=
  (le (buf.take (headWidth buf.length)), le (buf.drop (headWidth buf.length)))

/-- `w(o) = LE(buf[o], …, buf[o+7])` (43_bulk_folder.md R177). -/
def word8 (buf : List Byte) (o : Nat) : Word := le ((buf.drop o).take 8)

/-- `q32 = floor((N - 1) / 32)`, the iterations of the 32-byte loop (43_bulk_folder.md R175). -/
def q32 (n : Nat) : Nat := (n - 1) / 32

/-- `q16`, the iterations of the 16-byte loop: 1 if more than 16 bytes remain after the 32-byte loop (43_bulk_folder.md R175). -/
def q16 (n : Nat) : Nat := if n - 32 * q32 n > 16 then 1 else 0

/-- The bulk accumulators after `j` 32-byte chunks (43_bulk_folder.md R177). -/
def bulkAccs (k : ConstTable) (s : Word) (buf : List Byte) : Nat → Word × Word
  | 0 => (s, s)
  | j + 1 =>
    let p := bulkAccs k s buf j
    (mixVal (word8 buf (32 * j) ^^^ k.k2) (word8 buf (32 * j + 8) ^^^ p.1),
     mixVal (word8 buf (32 * j + 16) ^^^ k.k3) (word8 buf (32 * j + 24) ^^^ p.2))

/-- The running seed after the 32-byte loop: joined if the loop ran (43_bulk_folder.md R172, R177). -/
def joined (k : ConstTable) (s : Word) (buf : List Byte) : Word :=
  let p := bulkAccs k s buf (q32 buf.length)
  if q32 buf.length ≥ 1 then p.1 ^^^ p.2 else s

/-- The running seed the bulk folder leaves (43_bulk_folder.md R177). -/
def bulkSeed (k : ConstTable) (s : Word) (buf : List Byte) : Word :=
  let o := 32 * q32 buf.length
  if q16 buf.length = 1 then mixVal (word8 buf o ^^^ k.k1) (word8 buf (o + 8) ^^^ joined k s buf)
  else joined k s buf

/-- The bulk folder's lanes: the last 16 bytes (43_bulk_folder.md R177). -/
def tailLanes (buf : List Byte) : Word × Word :=
  (word8 buf (buf.length - 16), word8 buf (buf.length - 8))

/-- The finalizer's formula (44_finalizer.md R190). -/
def finalMix (k : ConstTable) (n : Word) (lanes : Word × Word) (t : Word) : Word :=
  mixVal (k.k1 ^^^ n) (mixVal (lanes.1 ^^^ k.k1) (lanes.2 ^^^ t))

/-- `H64(n, buf, seed)` (45_commands.md R206). -/
def h64 (k : ConstTable) (buf : List Byte) (seed : Word) : Word :=
  let s := seed ^^^ k.k0
  let n := BitVec.ofNat 64 buf.length
  if buf.length ≤ 16 then finalMix k n (packLanes buf) s
  else finalMix k n (tailLanes buf) (bulkSeed k s buf)

/-- `H32(n, buf, seed) = trunc_32(H64 - (H64 >> 32))` (45_commands.md R206). -/
def h32 (k : ConstTable) (buf : List Byte) (seed : Word) : BitVec 32 :=
  (h64 k buf seed - (h64 k buf seed >>> 32)).truncate 32

/-- How many µops a command takes (45_commands.md R205): 4 on the short path, `q32 + q16 + 5` and one for BJOIN on the
bulk path, and one for FOLD32 when HASH32. -/
def uopCount (n : Nat) (opl : BitVec 1) : Nat :=
  (if n ≤ 16 then 4 else q32 n + q16 n + 5 + (if q32 n ≥ 1 then 1 else 0)) + (if opl = 1 then 1 else 0)

/-- `width@offset` from a base (20_memory.md R66). -/
def readAt (base : Word) (w : ReadWidth) (o : Nat) : ReadReq := ⟨w, base + BitVec.ofNat 64 o⟩

/-- The short path's row of the access list: the head, then the remainder bytes in ascending order (20_memory.md R66). -/
def shortReads (base : Word) (n : Nat) : List ReadReq :=
  (if n = 0 then [] else if n = 1 then [readAt base .w1 0] else if n = 2 then [readAt base .w2 0]
    else if n = 3 then [readAt base .w2 0, readAt base .w1 2] else if n ≤ 8 then [readAt base .w4 0]
    else [readAt base .w8 0]) ++
  (if n ≤ 3 then [] else (List.range (n - headWidth n)).map fun j => readAt base .w1 (headWidth n + j))

/-- The four reads of the 32-byte chunk at offset `o` (20_memory.md R66). -/
def chunkReads (base : Word) (o : Nat) : List ReadReq :=
  [readAt base .w8 o, readAt base .w8 (o + 8), readAt base .w8 (o + 16), readAt base .w8 (o + 24)]

/-- The reads of the first `j` 32-byte chunks. -/
def loopReads (base : Word) : Nat → List ReadReq
  | 0 => []
  | j + 1 => loopReads base j ++ chunkReads base (32 * j)

/-- The access list of a command with launched size `n` and base `base` (20_memory.md R66). -/
def accessList (base : Word) (n : Nat) : List ReadReq :=
  if n ≤ 16 then shortReads base n
  else
    loopReads base (q32 n) ++
    (if q16 n = 1 then [readAt base .w8 (32 * q32 n), readAt base .w8 (32 * q32 n + 8)] else []) ++
    [readAt base .w8 (n - 16), readAt base .w8 (n - 8)]

end Sys2Proof.Machine
end

