-- ==== Sys2Proof/Safety.lean ====
section
/-! DEFINITION. What counts as a safe state, in the terms the statements use: the invariants of the machine. -/

namespace Sys2Proof.Machine

/-- The buffer `buf` stands in the input space from `base` up: byte `k` at `base + k`, and the range does not wrap
(20_memory.md R69, 70_reset_and_hazards.md R266). -/
def HoldsAt (m : Memory) (base : Word) (buf : List Byte) : Prop :=
  base.toNat + buf.length ≤ 2 ^ 64 ∧
    ∀ j (h : j < buf.length), m.byteAt (base.toNat + j) = some (buf[j])

/-- Every address of the range holds a readable byte, and the range does not wrap (70_reset_and_hazards.md R266). -/
def Readable (m : Memory) (base n : Word) : Prop :=
  base.toNat + n.toNat ≤ 2 ^ 64 ∧ ∀ a, base.toNat ≤ a → a < base.toNat + n.toNat → (m.byteAt a).isSome

/-- What holds of the loop counters when a given µop is next (43_bulk_folder.md R170 to R174, 45_commands.md R205). -/
def StageOk (s : State) : Prop :=
  match s.upc with
  | .idle => True
  | .salt => s.rI = s.rN
  | .pack => s.rI = s.rN ∧ s.rN.toNat ≤ 16
  | .binit => s.rI = s.rN ∧ 16 < s.rN.toNat
  | .b32 => 16 < s.rN.toNat ∧ 32 < s.rI.toNat
  | .bjoin => 16 < s.rN.toNat ∧ 1 ≤ s.rI.toNat ∧ s.rI.toNat ≤ 32
  | .b16 => 16 < s.rN.toNat ∧ 16 < s.rI.toNat ∧ s.rI.toNat ≤ 32
  | .tail => 16 < s.rN.toNat ∧ 1 ≤ s.rI.toNat ∧ s.rI.toNat ≤ 16
  | .fin => True
  | .fold32 => s.rOPL = 1
  | .ret => s.rOPL = 1 → s.rR.toNat < 2 ^ 32

/-- The invariant of the machine. -/
structure Inv (s : State) : Prop where
  /-- The input space is in canonical form. -/
  memWf : s.mem.wf = true
  /-- The four constants are odd (00_scope.md R6). -/
  kOdd : oddWord s.k.k0 = true ∧ oddWord s.k.k1 = true ∧ oddWord s.k.k2 = true ∧ oddWord s.k.k3 = true
  /-- "`BUSY` and `DONE` are never both 1" (10_state.md R24). -/
  notBoth : ¬ (s.busy = true ∧ s.done = true)
  /-- `BUSY` is 1 exactly while `UPC` is one of SALT to RET (10_state.md R24). -/
  busyIff : s.busy = true ↔ s.upc ≠ .idle
  /-- While a command runs, its window is readable and the remaining count is part of it (43_bulk_folder.md R176). -/
  window : s.busy = true → Readable s.mem s.windowBase s.rN ∧ s.rI.toNat ≤ s.rN.toNat
  /-- The counters are what the next µop requires. -/
  stage : s.busy = true → StageOk s

/-- A read request lies in the launched window (20_memory.md R65). -/
def InsideWindow (s : State) (r : ReadReq) : Prop :=
  s.windowBase.toNat ≤ r.addr.toNat ∧
    r.addr.toNat + ReadWidth.bytes r.width ≤ s.windowBase.toNat + s.rN.toNat

/-- No request of the model's own test port is pending (log 11): the block's reads are those of its µops. -/
def NoTestPort (s : State) : Prop := ∀ u a b, Turn.prim u a b ∉ s.turns

/-- Window safety: the invariant, no pending test-port request, and while a command runs every read it has issued lies
inside its window (20_memory.md R65). -/
structure ReadsSafe (s : State) : Prop where
  inv : Inv s
  noTestPort : NoTestPort s
  inside : s.busy = true → ∀ r ∈ s.reads, InsideWindow s r

end Sys2Proof.Machine
end

