-- ==== Sys2Proof/Certificates/Slice0/Obligations.lean ====
section
/-! DEFINITION. The statements for the provers. Where a next state is written `{ s with … }`, every field that is not named
keeps its value: that is the statement's frame, the memory, the constant table and the host registers included. The
fields `ret`, `reads`, `hostRead`, `turns` and `freeIdx` are the model's own (log 8 to 12): a statement that cites a rule
of the spec leaves them open (`reads := l` for some `l`). -/

open Sys2Proof Sys2Proof.Machine

/-! ## Encoding -/

/-- Decoding and encoding agree for every instruction, with every operand, and every well-formed encoded form stands for
exactly one instruction, the one whose encoding it is. -/
def Obligations.EveryFormStandsForItsInstruction : Prop :=
  (∀ i : Instr, decode (encode i) = .ok i ∧ (encode i).wf = true) ∧
  (∀ e : Encoded, e.wf = true → ∃ i, decode e = .ok i) ∧
  (∀ (e : Encoded) (i : Instr), e.wf = true → decode e = .ok i → encode i = e)

/-- Words written out from the spec's encoding tables decode to the instructions they stand for. -/
def Obligations.WrittenOutWordsDecode : Prop :=
  decode (.cmd 0x0000000000000001) = .ok .hash64 ∧ decode (.cmd 0x0000000000000002) = .ok .hash32 ∧
  decode (.uop 0b0001) = .ok .salt ∧ decode (.uop 0b0100) = .ok .b32 ∧ decode (.uop 0b1010) = .ok .ret ∧
  decode (.size 0x000000000000000D) = .ok .pack13 ∧ decode (.prim 0b011 0x1001 0) = .ok (.rd8 0x1001) ∧
  decode (.prim 0b101 7 9) = .ok (.mix 7 9)

/-- 30_encoding.md R92: each size 0 to 16 selects its own layout, on all 64 bits; a larger one selects none, and SALT sends
it to BINIT. -/
def Obligations.SizeSelectsTheLayout : Prop :=
  (decode (.size 0) = .ok .pack0 ∧ decode (.size 1) = .ok .pack1 ∧ decode (.size 2) = .ok .pack2 ∧
    decode (.size 3) = .ok .pack3 ∧ decode (.size 4) = .ok .pack4 ∧ decode (.size 5) = .ok .pack5 ∧
    decode (.size 6) = .ok .pack6 ∧ decode (.size 7) = .ok .pack7 ∧ decode (.size 8) = .ok .pack8 ∧
    decode (.size 9) = .ok .pack9 ∧ decode (.size 10) = .ok .pack10 ∧ decode (.size 11) = .ok .pack11 ∧
    decode (.size 12) = .ok .pack12 ∧ decode (.size 13) = .ok .pack13 ∧ decode (.size 14) = .ok .pack14 ∧
    decode (.size 15) = .ok .pack15 ∧ decode (.size 16) = .ok .pack16) ∧
  (∀ n : Word, 16 < n.toNat → ∀ i, decode (.size n) ≠ .ok i) ∧
  (∀ (n : Word) (i : Instr), decode (.size n) = .ok i → encode i = .size n) ∧
  (∀ s t : State, exec .salt s = .next t →
    (16 < s.rN.toNat → t.upc = .binit) ∧ (s.rN.toNat ≤ 16 → t.upc = .pack))

/-- 30_encoding.md R97: a word whose `OPC` is neither 1 nor 2, or whose `RSV` is not 0, launches nothing and changes no
state, whatever the block is doing. -/
def Obligations.InvalidCommandWordIsIgnored : Prop :=
  ∀ (s : State) (w : Word) (rest : List Turn), s.turns = .host (.writeReg 0 w) :: rest →
    ¬ (w.extractLsb' 8 56 = 0#56 ∧ (w.extractLsb' 0 8 = 0x01#8 ∨ w.extractLsb' 0 8 = 0x02#8)) →
    step s = .next { s with turns := rest }

/-! ## The step -/

/-- A step runs the decoded instruction: the core's turn runs what `UPC` and `N` encode, a write to `CMD` runs the command
word, a request on the model's test port (log 11) runs the primitive. The turn is taken from the queue (log 9). -/
def Obligations.StepRunsTheDecodedInstruction : Prop :=
  ∀ (s : State) (i : Instr) (rest : List Turn),
    (s.turns = [] → decode (coreEncoding s.upc s.rN) = .ok i → step s = exec i s) ∧
    (s.turns = .core :: rest → decode (coreEncoding s.upc s.rN) = .ok i →
      step s = exec i { s with turns := rest }) ∧
    (∀ w, s.turns = .host (.writeReg 0 w) :: rest → decode (.cmd w) = .ok i →
      step s = exec i { s with turns := rest }) ∧
    (∀ u a b, s.turns = .prim u a b :: rest → decode (.prim u a b) = .ok i →
      step s = exec i { s with turns := rest })

/-- A table word placed in a state is what the very next step runs, and placing it changes nothing but `UPC`, `N` and the
queue of turns (the model's choice, log 18 and 19). -/
def Obligations.PlacedTableWordIsRun : Prop :=
  ∀ (s : State) (nbits w : Nat) (i : Instr), decodeTableWord nbits w = some i →
    ∃ u n, step (s.withFetchWord nbits w) = exec i { s with upc := u, rN := n } ∧
      (nbits = 64 → ∀ c : Word, c = BitVec.ofNat 64 w → decode (.cmd c) = .ok i → u = s.upc ∧ n = s.rN)

/-- 60_exceptions.md R241: at `IDLE` the core does nothing and keeps everything, and only a valid `CMD` write, by
register number or on the platform's bus (the model's places, log 20), leaves `IDLE`. -/
def Obligations.IdleBlockKeepsEverything : Prop :=
  (∀ s : State, s.upc = .idle → s.turns = [] → step s = .next s) ∧
  (∀ (s : State) (rest : List Turn), s.upc = .idle → s.turns = .core :: rest → step s = .next { s with turns := rest }) ∧
  (∀ s t : State, s.upc = .idle → step s = .next t → t.upc ≠ .idle →
    ∃ a rest w, s.turns = .host a :: rest ∧ a.written s.bus = some (0, w) ∧ (w = 1 ∨ w = 2))

/-- 45_commands.md R205: the complete successor relation of `UPC`, the conditions evaluated after the operation's own
writes; a primitive leaves `UPC` as it is. -/
def Obligations.SuccessorRelationIsComplete : Prop :=
  ∀ (i : Instr) (s t : State), exec i s = .next t →
    match i with
    | .hash64 => t.upc = if s.busy then s.upc else .salt
    | .hash32 => t.upc = if s.busy then s.upc else .salt
    | .salt => t.upc = if t.rN.toNat ≤ 16 then .pack else .binit
    | .binit => t.upc = if t.rI.toNat > 32 then .b32 else if t.rI.toNat > 16 then .b16 else .tail
    | .b32 => t.upc = if t.rI.toNat > 32 then .b32 else .bjoin
    | .bjoin => t.upc = if t.rI.toNat > 16 then .b16 else .tail
    | .b16 => t.upc = if t.rI.toNat > 16 then .b16 else .tail
    | .tail => t.upc = .fin
    | .fin => t.upc = if t.rOPL = 1 then .fold32 else .ret
    | .fold32 => t.upc = .ret
    | .ret => t.upc = .idle
    | .rd1 _ | .rd2 _ | .rd4 _ | .rd8 _ | .mum _ _ | .mix _ _ => t.upc = s.upc
    | .pack0 | .pack1 | .pack2 | .pack3 | .pack4 | .pack5 | .pack6 | .pack7 | .pack8 | .pack9 | .pack10
    | .pack11 | .pack12 | .pack13 | .pack14 | .pack15 | .pack16 => t.upc = .fin

/-! ## Commands -/

/-- 45_commands.md R200: a launch of an idle block latches the operands, sets `BUSY`, clears `DONE` and goes to SALT; while
`BUSY = 1` the command does nothing, a word that is no valid command does nothing, and a later host write to a register
does not touch what was latched. The window is readable (70_reset_and_hazards.md R266) and the memory canonical. -/
def Obligations.LaunchLatchesTheOperands : Prop :=
  (decode (.cmd 0x0000000000000001) = .ok .hash64 ∧ decode (.cmd 0x0000000000000002) = .ok .hash32) ∧
  (∀ (s : State) (w : Word) (rest : List Turn), s.turns = .host (.writeReg 0 w) :: rest →
    (s.busy = true ∨ (w ≠ 1 ∧ w ≠ 2) → step s = .next { s with turns := rest }) ∧
    (w = 1 → step s = exec .hash64 { s with turns := rest }) ∧
    (w = 2 → step s = exec .hash32 { s with turns := rest })) ∧
  (∀ (s : State) (reg : Nat) (w : Word) (rest : List Turn), s.turns = .host (.writeReg (reg + 1) w) :: rest →
    ∃ t, step s = .next t ∧ t.rOPL = s.rOPL ∧ t.rN = s.rN ∧ t.rI = s.rI ∧ t.rP = s.rP ∧ t.rS = s.rS ∧
      t.busy = s.busy ∧ t.done = s.done ∧ t.upc = s.upc) ∧
  ∀ s : State,
    (s.busy = false → s.mem.wf = true → Readable s.mem s.data s.size →
      (∃ l, exec .hash64 s = .next { s with
        rOPL := 0, rN := s.size, rI := s.size, rP := s.data, rS := s.seed,
        busy := true, done := false, upc := .salt, reads := l }) ∧
      (∃ l, exec .hash32 s = .next { s with
        rOPL := 1, rN := s.size, rI := s.size, rP := s.data, rS := s.seed,
        busy := true, done := false, upc := .salt, reads := l })) ∧
    (s.busy = true → exec .hash64 s = .next s ∧ exec .hash32 s = .next s)

/-- A launch with no bytes needs nothing of `DATA` and nothing of the memory (20_memory.md R66, R70). -/
def Obligations.EmptyWindowLaunchesAnywhere : Prop :=
  ∀ s : State, s.busy = false → s.size = 0 →
    (∃ t, exec .hash64 s = .next t ∧ t.upc = .salt ∧ t.rN = 0) ∧
    (∃ t, exec .hash32 s = .next t ∧ t.upc = .salt ∧ t.rN = 0)

/-- A launch whose window wraps, or holds an address with no byte, is refused (20_memory.md R69, R71, U1, U2; log 5). -/
def Obligations.LaunchOfABadWindowIsRefused : Prop :=
  ∀ s : State, s.busy = false →
    (s.data.toNat + s.size.toNat > 2 ^ 64 →
      exec .hash64 s = .refused .windowWraps ∧ exec .hash32 s = .refused .windowWraps) ∧
    (∀ a, s.data.toNat + s.size.toNat ≤ 2 ^ 64 → s.data.toNat ≤ a → a < s.data.toNat + s.size.toNat →
      s.mem.byteAt a = none →
      exec .hash64 s = .refused .windowUnreadable ∧ exec .hash32 s = .refused .windowUnreadable)

/-- 10_state.md R43: while `BUSY = 1` a write to `CMD` is ignored, and a write to `SIZE`, `DATA` or `SEED` updates that
register and nothing of the running command. -/
def Obligations.WritesWhileBusyDoNotTouchTheCommand : Prop :=
  ∀ (s : State) (w : Word) (rest : List Turn), s.busy = true →
    (s.turns = .host (.writeReg 0 w) :: rest → step s = .next { s with turns := rest }) ∧
    (s.turns = .host (.writeReg 2 w) :: rest → step s = .next { s with turns := rest, size := w }) ∧
    (s.turns = .host (.writeReg 3 w) :: rest → step s = .next { s with turns := rest, data := w }) ∧
    (s.turns = .host (.writeReg 4 w) :: rest → step s = .next { s with turns := rest, seed := w })

/-- 45_commands.md R203: SALT, with its encoding. -/
def Obligations.SaltSaltsTheSeedAndChoosesThePath : Prop :=
  decode (.uop 0b0001) = .ok .salt ∧
  ∀ s : State,
    exec .salt s = .next { s with rS := s.rS ^^^ s.k.k0, upc := if s.rN.toNat ≤ 16 then .pack else .binit }

/-- 45_commands.md R204: RET publishes the result and makes the block idle in one step; the working registers stay. -/
def Obligations.RetPublishesTheResult : Prop :=
  decode (.uop 0b1010) = .ok .ret ∧
  ∀ s : State, exec .ret s = .next { s with result := s.rR, busy := false, done := true, upc := .idle } ∧
    ({ s with result := s.rR, busy := false, done := true, upc := .idle } : State).status = 2

/-! ## Byte readers -/

/-- 20_memory.md R62: `MemRead` gives the bytes in ascending order, `RDn` is their little-endian sum, and the mixed-width
view is consistent. -/
def Obligations.ReadersAreLittleEndian : Prop :=
  ∀ (m : Memory) (a : Word),
    (∀ (w : ReadWidth) (bs : List Byte), bs.length = ReadWidth.bytes w →
      (∀ j (h : j < bs.length), m.byteAt (a + BitVec.ofNat 64 j).toNat = some (bs[j])) →
      memRead m a (ReadWidth.bytes w) = some bs ∧
      ∃ v, rd m w a = some v ∧ v.toNat = ∑ j : Fin bs.length, (bs[j.val]).toNat * 2 ^ (8 * j.val)) ∧
    rd m .w8 a = (rd m .w4 a).bind (fun x => (rd m .w4 (a + 4)).map fun (y : Word) => x ||| (y <<< 32)) ∧
    rd m .w4 a = (rd m .w2 a).bind (fun x => (rd m .w2 (a + 2)).map fun (y : Word) => x ||| (y <<< 16)) ∧
    rd m .w2 a = (rd m .w1 a).bind (fun x => (rd m .w1 (a + 1)).map fun (y : Word) => x ||| (y <<< 8))

/-- 41_byte_readers.md R130 to R133: what each reader returns, as each rule writes it, its request code, its range, and
the rules' worked examples. -/
def Obligations.ReaderValues : Prop :=
  (∀ (m : Memory) (a : Word) (b0 b1 b2 b3 b4 b5 b6 b7 : Byte),
    (m.byteAt a.toNat = some b0 → rd m .w1 a = some (b0.zeroExtend 64)) ∧
    (m.byteAt a.toNat = some b0 → m.byteAt (a + 1).toNat = some b1 →
      rd m .w2 a = some (b0.zeroExtend 64 ||| (b1.zeroExtend 64 <<< 8))) ∧
    (m.byteAt a.toNat = some b0 → m.byteAt (a + 1).toNat = some b1 → m.byteAt (a + 2).toNat = some b2 →
      m.byteAt (a + 3).toNat = some b3 →
      rd m .w4 a = some (b0.zeroExtend 64 ||| (b1.zeroExtend 64 <<< 8) ||| (b2.zeroExtend 64 <<< 16) |||
        (b3.zeroExtend 64 <<< 24))) ∧
    (m.byteAt a.toNat = some b0 → m.byteAt (a + 1).toNat = some b1 → m.byteAt (a + 2).toNat = some b2 →
      m.byteAt (a + 3).toNat = some b3 → m.byteAt (a + 4).toNat = some b4 → m.byteAt (a + 5).toNat = some b5 →
      m.byteAt (a + 6).toNat = some b6 → m.byteAt (a + 7).toNat = some b7 →
      rd m .w8 a = some (b0.zeroExtend 64 ||| (b1.zeroExtend 64 <<< 8) ||| (b2.zeroExtend 64 <<< 16) |||
        (b3.zeroExtend 64 <<< 24) ||| (b4.zeroExtend 64 <<< 32) ||| (b5.zeroExtend 64 <<< 40) |||
        (b6.zeroExtend 64 <<< 48) ||| (b7.zeroExtend 64 <<< 56)))) ∧
  (∀ (m : Memory) (w : ReadWidth) (a v : Word), rd m w a = some v → v.toNat < 256 ^ ReadWidth.bytes w) ∧
  (∀ a : Word, decode (.prim 0b000 a 0) = .ok (.rd1 a) ∧ decode (.prim 0b001 a 0) = .ok (.rd2 a) ∧
    decode (.prim 0b010 a 0) = .ok (.rd4 a) ∧ decode (.prim 0b011 a 0) = .ok (.rd8 a)) ∧
  (∀ m : Memory, HoldsAt m 0x1000 [0x11, 0x22, 0x33, 0x44, 0x55, 0x66, 0x77, 0x88, 0x99] →
    rd m .w1 0x1002 = some 0x33 ∧ rd m .w2 0x1001 = some 0x3322 ∧ rd m .w4 0x1000 = some 0x44332211 ∧
    rd m .w4 0x1003 = some 0x77665544 ∧ rd m .w8 0x1000 = some 0x8877665544332211 ∧
    rd m .w8 0x1001 = some 0x9988776655443322) ∧
  (∀ (m : Memory) (a : Word), m.byteAt a.toNat = some 0xFF → rd m .w1 a = some 0x00000000000000FF)

/-- A reader executed by itself completes wherever its bytes are readable, at any alignment: it issues its one read
request and writes no register and no flag (41_byte_readers.md R134). The returned value stands in `ret` and the request
in `reads`, the model's own fields (log 10, 11). -/
def Obligations.ReadersCompleteOnReadableBytes : Prop :=
  ∀ (s : State) (a v : Word),
    (rd s.mem .w1 a = some v → exec (.rd1 a) s = .next { s with ret := v, reads := s.reads ++ [⟨.w1, a⟩] }) ∧
    (rd s.mem .w2 a = some v → exec (.rd2 a) s = .next { s with ret := v, reads := s.reads ++ [⟨.w2, a⟩] }) ∧
    (rd s.mem .w4 a = some v → exec (.rd4 a) s = .next { s with ret := v, reads := s.reads ++ [⟨.w4, a⟩] }) ∧
    (rd s.mem .w8 a = some v → exec (.rd8 a) s = .next { s with ret := v, reads := s.reads ++ [⟨.w8, a⟩] })

/-- A reader one of whose addresses holds no byte is refused: the model never invents a byte (20_memory.md R71, U1; log 4). -/
def Obligations.ReaderOfAnAbsentByteIsRefused : Prop :=
  ∀ (s : State) (a : Word) (j : Nat), s.mem.byteAt (a + BitVec.ofNat 64 j).toNat = none →
    (j < 1 → exec (.rd1 a) s = .refused .inputUnreadable) ∧
    (j < 2 → exec (.rd2 a) s = .refused .inputUnreadable) ∧
    (j < 4 → exec (.rd4 a) s = .refused .inputUnreadable) ∧
    (j < 8 → exec (.rd8 a) s = .refused .inputUnreadable)

/-! ## The product -/

/-- 40_mix.md R120: the two halves are those of the exact unsigned product, and the high half is at most `2^64 - 2`. -/
def Obligations.ProductIsExact : Prop :=
  ∀ a b : Word,
    (mul128 a b).1.toNat = a.toNat * b.toNat % 2 ^ 64 ∧ (mul128 a b).2.toNat = a.toNat * b.toNat / 2 ^ 64 ∧
    (mul128 a b).1.toNat + 2 ^ 64 * (mul128 a b).2.toNat = a.toNat * b.toNat ∧
    (mul128 a b).2.toNat ≤ 2 ^ 64 - 2

/-- 40_mix.md R121: MUM leaves the low half in `MA` and the high half in `MB` and writes nothing else, for every operand
pair; with its request code, its corner cases and its worked example. -/
def Obligations.MumLeavesBothHalves : Prop :=
  (∀ (a b : Word) (s : State), ∃ lo hi : Word, exec (.mum a b) s = .next { s with rMA := lo, rMB := hi } ∧
    lo.toNat = a.toNat * b.toNat % 2 ^ 64 ∧ hi.toNat = a.toNat * b.toNat / 2 ^ 64) ∧
  (∀ (b : Word) (s : State), exec (.mum 0 b) s = .next { s with rMA := 0, rMB := 0 } ∧
    exec (.mum b 0) s = .next { s with rMA := 0, rMB := 0 } ∧
    exec (.mum 1 b) s = .next { s with rMA := b, rMB := 0 }) ∧
  (∀ s : State, exec (.mum (-1) (-1)) s = .next { s with rMA := 1, rMB := -2 } ∧
    exec (.mum 0xFFFFFFFFFFFFFFFF 0x2) s = .next { s with rMA := 0xFFFFFFFFFFFFFFFE, rMB := 0x1 }) ∧
  (∀ a b : Word, decode (.prim 0b100 a b) = .ok (.mum a b))

/-- MIX decodes from its request code, completes for every operand pair, leaves the halves as MUM does and returns their
XOR (40_mix.md R122), in `ret`, the model's own field (log 11); with the rule's worked example. -/
def Obligations.MixReturnsTheFoldedProduct : Prop :=
  (∀ a b : Word, decode (.prim 0b101 a b) = .ok (.mix a b)) ∧
  (∀ (a b : Word) (s : State), ∃ lo hi : Word,
    exec (.mix a b) s = .next { s with rMA := lo, rMB := hi, ret := lo ^^^ hi } ∧
    lo.toNat = a.toNat * b.toNat % 2 ^ 64 ∧ hi.toNat = a.toNat * b.toNat / 2 ^ 64) ∧
  mul128 0x0123456789ABCDEF 0xFEDCBA9876543210 = (0x2236D88FE5618CF0, 0x0121FA00AD77D742) ∧
  mixVal 0x0123456789ABCDEF 0xFEDCBA9876543210 = 0x2317228F48165BB2

/-- The laws of MIX (40_mix.md R123, which the spec derives). -/
def Obligations.LawsOfMix : Prop :=
  (∀ a b : Word, mixVal a b = mixVal b a) ∧ (∀ b : Word, mixVal 0 b = 0) ∧ (∀ b : Word, mixVal 1 b = b) ∧
  (∀ a b : Word, a.toNat * b.toNat < 2 ^ 64 → (mixVal a b).toNat = a.toNat * b.toNat) ∧
  mixVal 0x100000000 0x100000000 = 1 ∧ mixVal 0x8000000000000000 2 = 1 ∧
  mixVal 0x8000000000000000 0x8000000000000000 = 0x4000000000000000 ∧
  mixVal (-1) (-1) = -1 ∧ mixVal (-1) 2 = -1 ∧
  (∃ b b' : Word, b ≠ b' ∧ mixVal 0 b = mixVal 0 b')

/-- The composition of the product from 32 by 32 bit partial products is bit-exact (40_mix.md R126, which the spec derives). -/
def Obligations.PartialProductsComposeTheProduct : Prop :=
  ∀ a b : Word,
    let al := a.toNat % 2 ^ 32
    let ah := a.toNat / 2 ^ 32
    let bl := b.toNat % 2 ^ 32
    let bh := b.toNat / 2 ^ 32
    let mid := al * bl / 2 ^ 32 + al * bh % 2 ^ 32 + ah * bl % 2 ^ 32
    (mul128 a b).1.toNat = (mid % 2 ^ 32) * 2 ^ 32 + al * bl % 2 ^ 32 ∧
    (mul128 a b).2.toNat = ah * bh + al * bh / 2 ^ 32 + ah * bl / 2 ^ 32 + mid / 2 ^ 32 ∧
    mid < 2 ^ 34

/-! ## The short-input dispatcher -/

/-- 42_short_dispatch.md R142 to R145: sizes 0 to 3 go to `X0` little-endian, `X1` is 0; with the layouts' encodings. -/
def Obligations.LayoutsForSizes0To3 : Prop :=
  (Upc.pack.code = 2 ∧ decode (coreEncoding .pack 0) = .ok .pack0 ∧ decode (coreEncoding .pack 1) = .ok .pack1 ∧
    decode (coreEncoding .pack 2) = .ok .pack2 ∧ decode (coreEncoding .pack 3) = .ok .pack3) ∧
  ∀ (s : State) (b0 b1 b2 : Byte),
    (exec .pack0 s = .next { s with rX0 := 0, rX1 := 0, upc := .fin }) ∧
    (HoldsAt s.mem s.rP [b0] →
      ∃ l, exec .pack1 s = .next { s with rX0 := b0.zeroExtend 64, rX1 := 0, upc := .fin, reads := l }) ∧
    (HoldsAt s.mem s.rP [b0, b1] →
      ∃ l, exec .pack2 s = .next { s with
        rX0 := b0.zeroExtend 64 ||| (b1.zeroExtend 64 <<< 8), rX1 := 0,
        upc := .fin, reads := l }) ∧
    (HoldsAt s.mem s.rP [b0, b1, b2] →
      ∃ l, exec .pack3 s = .next { s with
        rX0 := b0.zeroExtend 64 ||| (b1.zeroExtend 64 <<< 8) ||| (b2.zeroExtend 64 <<< 16), rX1 := 0,
        upc := .fin, reads := l })

/-- 42_short_dispatch.md R146 to R150: sizes 4 to 8 have a 4-byte head in `X0`, the remainder in `X1` from byte position 0;
with the layouts' encodings. -/
def Obligations.LayoutsForSizes4To8 : Prop :=
  (Upc.pack.code = 2 ∧ decode (coreEncoding .pack 4) = .ok .pack4 ∧ decode (coreEncoding .pack 5) = .ok .pack5 ∧
    decode (coreEncoding .pack 6) = .ok .pack6 ∧ decode (coreEncoding .pack 7) = .ok .pack7 ∧
    decode (coreEncoding .pack 8) = .ok .pack8) ∧
  ∀ (s : State) (b0 b1 b2 b3 b4 b5 b6 b7 : Byte),
    let head : Word := b0.zeroExtend 64 ||| (b1.zeroExtend 64 <<< 8) ||| (b2.zeroExtend 64 <<< 16) |||
      (b3.zeroExtend 64 <<< 24)
    (HoldsAt s.mem s.rP [b0, b1, b2, b3] →
      ∃ l, exec .pack4 s = .next { s with rX0 := head, rX1 := 0, upc := .fin, reads := l }) ∧
    (HoldsAt s.mem s.rP [b0, b1, b2, b3, b4] →
      ∃ l, exec .pack5 s = .next { s with rX0 := head, rX1 := b4.zeroExtend 64, upc := .fin, reads := l }) ∧
    (HoldsAt s.mem s.rP [b0, b1, b2, b3, b4, b5] →
      ∃ l, exec .pack6 s = .next { s with
        rX0 := head, rX1 := b4.zeroExtend 64 ||| (b5.zeroExtend 64 <<< 8),
        upc := .fin, reads := l }) ∧
    (HoldsAt s.mem s.rP [b0, b1, b2, b3, b4, b5, b6] →
      ∃ l, exec .pack7 s = .next { s with
        rX0 := head,
        rX1 := b4.zeroExtend 64 ||| (b5.zeroExtend 64 <<< 8) ||| (b6.zeroExtend 64 <<< 16),
        upc := .fin, reads := l }) ∧
    (HoldsAt s.mem s.rP [b0, b1, b2, b3, b4, b5, b6, b7] →
      ∃ l, exec .pack8 s = .next { s with
        rX0 := head,
        rX1 := b4.zeroExtend 64 ||| (b5.zeroExtend 64 <<< 8) ||| (b6.zeroExtend 64 <<< 16) |||
          (b7.zeroExtend 64 <<< 24),
        upc := .fin, reads := l })

/-- 42_short_dispatch.md R151 to R158: sizes 9 to 16 have an 8-byte head in `X0`, and the remainder `r`, byte `8 + j` of the
buffer in byte position `j`, in `X1`; with the layouts' encodings. -/
def Obligations.LayoutsForSizes9To16 : Prop :=
  (Upc.pack.code = 2 ∧ decode (coreEncoding .pack 9) = .ok .pack9 ∧ decode (coreEncoding .pack 10) = .ok .pack10 ∧
    decode (coreEncoding .pack 11) = .ok .pack11 ∧ decode (coreEncoding .pack 12) = .ok .pack12 ∧
    decode (coreEncoding .pack 13) = .ok .pack13 ∧ decode (coreEncoding .pack 14) = .ok .pack14 ∧
    decode (coreEncoding .pack 15) = .ok .pack15 ∧ decode (coreEncoding .pack 16) = .ok .pack16) ∧
  ∀ (s : State) (hd r : List Byte), hd.length = 8 → HoldsAt s.mem s.rP (hd ++ r) →
    ∀ i : Instr,
      (r.length = 1 ∧ i = .pack9 ∨ r.length = 2 ∧ i = .pack10 ∨ r.length = 3 ∧ i = .pack11 ∨
        r.length = 4 ∧ i = .pack12 ∨ r.length = 5 ∧ i = .pack13 ∨ r.length = 6 ∧ i = .pack14 ∨
        r.length = 7 ∧ i = .pack15 ∨ r.length = 8 ∧ i = .pack16) →
      ∃ (l : List ReadReq) (x0 x1 : Word),
        exec i s = .next { s with rX0 := x0, rX1 := x1, upc := .fin, reads := l } ∧
        x0.toNat = ∑ j : Fin hd.length, (hd[j.val]).toNat * 2 ^ (8 * j.val) ∧
        x1.toNat = ∑ j : Fin r.length, (r[j.val]).toNat * 2 ^ (8 * j.val)

/-- Each layout issues the reads of its row of the access list, which touch the bytes `buf[0..n-1]` and no others, each
exactly once, in ascending order (20_memory.md R66, 42_short_dispatch.md R159, which the spec derives; the log of the
reads is the model's own field, log 10). And no two sizes share a layout: on a buffer of ones the lanes differ. -/
def Obligations.LayoutsReadEachByteOnce : Prop :=
  (∀ (n : Word) (i : Instr) (s t : State), decode (.size n) = .ok i → exec i s = .next t →
    t.reads = s.reads ++ shortReads s.rP n.toNat) ∧
  (∀ n, n ≤ 16 → (shortReads 0 n).flatMap (fun r => (List.range (ReadWidth.bytes r.width)).map (r.addr.toNat + ·)) =
    List.range n) ∧
  (∀ m n, m ≤ 16 → n ≤ 16 → m ≠ n → packLanes (List.replicate m 0xFF) ≠ packLanes (List.replicate n 0xFF))

/-! ## The bulk folder -/

/-- 43_bulk_folder.md R170: BINIT copies the salted seed into both accumulators and makes the first loop's head test. That
the branch to TAIL is never taken, which the rule derives, is what `StepKeepsTheInvariant` says. -/
def Obligations.BinitCopiesTheSeed : Prop :=
  decode (.uop 0b0011) = .ok .binit ∧
  ∀ s : State, exec .binit s = .next { s with
    rS0 := s.rS, rS1 := s.rS,
    upc := if s.rI.toNat > 32 then .b32 else if s.rI.toNat > 16 then .b16 else .tail }

/-- 43_bulk_folder.md R171: B32 mixes a 32-byte chunk into the two accumulators and moves the cursor. What it leaves in `MA`
and `MB` is not stated here (log 15). -/
def Obligations.B32FoldsAChunkIntoTheAccumulators : Prop :=
  decode (.uop 0b0100) = .ok .b32 ∧
  ∀ (s : State) (w0 w1 w2 w3 : Word), 32 < s.rI.toNat → rd s.mem .w8 s.rP = some w0 →
    rd s.mem .w8 (s.rP + 8) = some w1 → rd s.mem .w8 (s.rP + 16) = some w2 → rd s.mem .w8 (s.rP + 24) = some w3 →
    ∃ ma mb l, exec .b32 s = .next { s with
      rS0 := mixVal (w0 ^^^ s.k.k2) (w1 ^^^ s.rS0), rS1 := mixVal (w2 ^^^ s.k.k3) (w3 ^^^ s.rS1),
      rP := s.rP + 32, rI := s.rI - 32, rMA := ma, rMB := mb, reads := l,
      upc := if s.rI.toNat - 32 > 32 then .b32 else .bjoin }

/-- 43_bulk_folder.md R172: BJOIN. -/
def Obligations.BjoinJoinsTheAccumulators : Prop :=
  decode (.uop 0b0101) = .ok .bjoin ∧
  ∀ s : State, exec .bjoin s = .next { s with
    rS := s.rS0 ^^^ s.rS1,
    upc := if s.rI.toNat > 16 then .b16 else .tail }

/-- 43_bulk_folder.md R173: B16 mixes a 16-byte chunk into the running seed and moves the cursor. That the
self-loop is never taken, which the rule derives, is what `StepKeepsTheInvariant` says. -/
def Obligations.B16FoldsAChunkIntoTheSeed : Prop :=
  decode (.uop 0b0110) = .ok .b16 ∧
  ∀ (s : State) (w0 w1 : Word), 16 < s.rI.toNat → rd s.mem .w8 s.rP = some w0 → rd s.mem .w8 (s.rP + 8) = some w1 →
    ∃ ma mb l, exec .b16 s = .next { s with
      rS := mixVal (w0 ^^^ s.k.k1) (w1 ^^^ s.rS),
      rP := s.rP + 16, rI := s.rI - 16, rMA := ma, rMB := mb, reads := l,
      upc := if s.rI.toNat - 16 > 16 then .b16 else .tail }

/-- 43_bulk_folder.md R174: TAIL loads the 16 bytes that end where the window ends, and nothing else: the two
addresses are `BASE + N - 16` and `BASE + N - 8`. -/
def Obligations.TailLoadsTheLastSixteenBytes : Prop :=
  decode (.uop 0b0111) = .ok .tail ∧
  ∀ (s : State) (w0 w1 : Word), 1 ≤ s.rI.toNat → s.rI.toNat ≤ 16 →
    rd s.mem .w8 (s.rP + s.rI - 16) = some w0 → rd s.mem .w8 (s.rP + s.rI - 8) = some w1 →
    (∃ l, exec .tail s = .next { s with rX0 := w0, rX1 := w1, reads := l, upc := .fin }) ∧
    s.rP + s.rI - 16 = s.windowBase + s.rN - 16 ∧ s.rP + s.rI - 8 = s.windowBase + s.rN - 8

/-! ## The finalizer -/

/-- 44_finalizer.md R190: FIN is the two nested mixes of its formula. -/
def Obligations.FinIsTwoNestedMixes : Prop :=
  decode (.uop 0b1000) = .ok .fin ∧
  ∀ s : State, ∃ ma mb, exec .fin s = .next { s with
    rR := mixVal (s.k.k1 ^^^ s.rN) (mixVal (s.rX0 ^^^ s.k.k1) (s.rX1 ^^^ s.rS)), rMA := ma, rMB := mb,
    upc := if s.rOPL = 1 then .fold32 else .ret }

/-- The corner cases of FIN (44_finalizer.md R193, which the spec derives). -/
def Obligations.CornerCasesOfFin : Prop :=
  ∀ s t : State, exec .fin s = .next t →
    (s.rN = s.k.k1 → t.rR = 0) ∧ (s.rX0 = s.k.k1 ∨ s.rX1 = s.rS → t.rR = 0) ∧
    (s.k.k1 ^^^ s.rN = 1 → t.rR = mixVal (s.rX0 ^^^ s.k.k1) (s.rX1 ^^^ s.rS))

/-- 44_finalizer.md R191: FOLD32 leaves the low half minus the high half modulo `2^32`, zero-extended; with the rule's
corner cases and worked example. -/
def Obligations.Fold32SubtractsTheHighHalf : Prop :=
  decode (.uop 0b1001) = .ok .fold32 ∧
  (∀ s : State, ∃ v : Word, exec .fold32 s = .next { s with rR := v, upc := .ret } ∧
    v = ((s.rR - (s.rR >>> 32)).truncate 32).zeroExtend 64 ∧
    v.toNat = (s.rR.toNat % 2 ^ 32 + (2 ^ 32 - s.rR.toNat / 2 ^ 32)) % 2 ^ 32 ∧
    (s.rR.toNat < 2 ^ 32 → v = s.rR) ∧ (s.rR.toNat % 2 ^ 32 = s.rR.toNat / 2 ^ 32 → v = 0)) ∧
  (∀ s t : State, exec .fold32 s = .next t →
    (s.rR = 0x0000000100000000 → t.rR = 0xFFFFFFFF) ∧ (s.rR = 0xFFFFFFFF00000000 → t.rR = 0x00000001) ∧
    (s.rR = 0xFFFFFFFFFFFFFFFF → t.rR = 0) ∧ (s.rR = 0x42BC986DC5EEC4D3 → t.rR = 0x0000000083322C66))

/-! ## Frames and whole-machine rules -/

/-- Which operations write which registers (10_state.md R29 to R36; 20_memory.md R61): whatever an operation is not listed
for keeps its value. No operation writes the constants, the operand registers or the input space. -/
def Obligations.OnlyTheListedOperationsWrite : Prop :=
  ∀ (i : Instr) (s t : State), exec i s = .next t →
    (t.k = s.k ∧ t.bus = s.bus ∧ t.size = s.size ∧ t.data = s.data ∧ t.seed = s.seed ∧
      t.turns = s.turns ∧ t.hostRead = s.hostRead ∧ t.freeIdx = s.freeIdx) ∧
    (∀ a, t.mem.byteAt a = s.mem.byteAt a) ∧
    (i ≠ .ret → t.result = s.result) ∧
    (i ∉ [Instr.hash64, .hash32, .ret] → t.busy = s.busy ∧ t.done = s.done) ∧
    (i ∉ [Instr.hash64, .hash32] → t.rN = s.rN ∧ t.rOPL = s.rOPL) ∧
    (i ∉ [Instr.hash64, .hash32, .b32, .b16] → t.rP = s.rP ∧ t.rI = s.rI) ∧
    (i ∉ [Instr.hash64, .hash32, .salt, .bjoin, .b16] → t.rS = s.rS) ∧
    (i ∉ [Instr.binit, .b32] → t.rS0 = s.rS0 ∧ t.rS1 = s.rS1) ∧
    (i ∉ [Instr.tail, .pack0, .pack1, .pack2, .pack3, .pack4, .pack5, .pack6, .pack7, .pack8, .pack9, .pack10,
      .pack11, .pack12, .pack13, .pack14, .pack15, .pack16] → t.rX0 = s.rX0 ∧ t.rX1 = s.rX1) ∧
    (i ∉ [Instr.fin, .fold32] → t.rR = s.rR) ∧
    (t.rMA ≠ s.rMA ∨ t.rMB ≠ s.rMB → i ∈ [Instr.b32, .b16, .fin] ∨ ∃ a b, i = .mum a b ∨ i = .mix a b)

/-- 20_memory.md R61: the block never writes memory. A step changes a byte of the input space only when the host itself
stores one; and of what the host can read, an operation changes only `STATUS` and `RESULT`, never an operand register. -/
def Obligations.BlockNeverWritesMemory : Prop :=
  (∀ (i : Instr) (s t : State), exec i s = .next t → t.mem = s.mem ∧ (∀ a, t.mem.byteAt a = s.mem.byteAt a) ∧
    t.size = s.size ∧ t.data = s.data ∧ t.seed = s.seed ∧ t.k = s.k) ∧
  (∀ s t : State, step s = .next t →
    (∀ a, t.mem.byteAt a = s.mem.byteAt a) ∨ ∃ x b rest, s.turns = .host (.store x b) :: rest)

/-- The parameters are never written, the constant table (10_state.md R21) and the places of the host registers (00_scope.md
R5; log 20): not by an operation, not by the host, not by reset. -/
def Obligations.ConstantTableNeverChanges : Prop :=
  ∀ s t : State, step s = .next t → t.k = s.k ∧ t.bus = s.bus

/-- The invariant holds after reset. -/
def Obligations.InvariantHoldsAtReset : Prop := Inv State.reset ∧ ReadsSafe State.reset

/-- From every state that meets the invariant, every step leads to one that does: the input space stays canonical, the
constants odd, `BUSY` and `DONE` are never both 1, `BUSY` is 1 exactly while `UPC` is not `IDLE` (10_state.md R24), the
window of a running command stays readable, and the loop counters are what the next µop requires (43_bulk_folder.md R170
to R176). -/
def Obligations.StepKeepsTheInvariant : Prop :=
  ∀ s t : State, Inv s → step s = .next t → Inv t

/-- Window safety (20_memory.md R65): from every state that meets the invariant and holds no request of the model's test
port, every step leads to one in which all reads of the running command lie inside its window. The log of the reads is
the model's own field (log 10). -/
def Obligations.ReadsStayInsideTheWindow : Prop :=
  ∀ s t : State, ReadsSafe s → step s = .next t → ReadsSafe t

/-- A block left to itself never stops: in every state that meets the invariant, the core's step has a next state
(60_exceptions.md R230, 40_mix.md R125). -/
def Obligations.CoreNeverStops : Prop :=
  ∀ s : State, Inv s → s.turns = [] → ∃ t, step s = .next t

/-- `P + I = BASE + N` (43_bulk_folder.md R176): while a command runs, no step of the core moves its window. -/
def Obligations.WindowStaysPut : Prop :=
  ∀ s t : State, Inv s → s.turns = [] → s.busy = true → step s = .next t →
    t.windowBase = s.windowBase ∧ t.rN = s.rN ∧ t.rP + t.rI = s.windowBase + s.rN

/-- 10_state.md R24: `STATUS` reads `BUSY` in bit 0, `DONE` in bit 1 and zeros above; the flags change only at a launch, at
RET and at reset, as the rule says; a write to register 1 is ignored. A launch may also come by the bus (log 20). -/
def Obligations.StatusFollowsTheCommands : Prop :=
  State.reset.status = 0 ∧
  (∀ s t : State, s.busy = false → exec .hash64 s = .next t ∨ exec .hash32 s = .next t → t.busy = true ∧ t.done = false) ∧
  (∀ s : State, ∃ t, exec .ret s = .next t ∧ t.busy = false ∧ t.done = true ∧ t.result = s.rR) ∧
  (∀ s : State, s.status.getLsbD 0 = s.busy ∧ s.status.getLsbD 1 = s.done ∧ s.status.toNat < 4) ∧
  (∀ s : State, Inv s → s.status ≠ 3 ∧ (s.busy = true ↔ s.upc ≠ .idle)) ∧
  (∀ s t : State, step s = .next t →
    (t.busy = s.busy ∧ t.done = s.done) ∨
    (s.busy = false ∧ t.busy = true ∧ t.done = false ∧ t.upc = .salt ∧
      ∃ a rest w, s.turns = .host a :: rest ∧ a.written s.bus = some (0, w) ∧ (w = 1 ∨ w = 2)) ∨
    (s.upc = .ret ∧ t.upc = .idle ∧ t.busy = false ∧ t.done = true) ∨
    (t.busy = false ∧ t.done = false ∧ ∃ rest, s.turns = .reset :: rest)) ∧
  (∀ (s : State) (w : Word) (rest : List Turn), s.turns = .host (.writeReg 1 w) :: rest →
    step s = .next { s with turns := rest })

/-! ## Whole commands -/

/-- 45_commands.md R201 with the function of R206 and the µop count of R205: HASH64 of any buffer, from any idle state
with any contents of the working registers, ends after exactly its µops with `RESULT = H64`, `DONE = 1` and `BUSY = 0`;
the host's registers, the constants and the input space keep their values. -/
def Obligations.Hash64ComputesTheHash : Prop :=
  ∀ (s : State) (buf : List Byte), s.busy = false → s.mem.wf = true → s.size.toNat = buf.length →
    HoldsAt s.mem s.data buf → s.turns = [.host (.writeReg 0 1)] →
    ∃ t : State, Sys2Proof.core.run (1 + uopCount buf.length 0) s = .next t ∧
      t.result = h64 s.k buf s.seed ∧ t.done = true ∧ t.busy = false ∧ t.upc = .idle ∧
      t.size = s.size ∧ t.data = s.data ∧ t.seed = s.seed ∧ t.k = s.k ∧ ∀ a, t.mem.byteAt a = s.mem.byteAt a

/-- 45_commands.md R202: HASH32 likewise ends with the 32-bit hash in bits [31:0] of `RESULT` and zeros above. -/
def Obligations.Hash32ComputesTheFoldedHash : Prop :=
  ∀ (s : State) (buf : List Byte), s.busy = false → s.mem.wf = true → s.size.toNat = buf.length →
    HoldsAt s.mem s.data buf → s.turns = [.host (.writeReg 0 2)] →
    ∃ t : State, Sys2Proof.core.run (1 + uopCount buf.length 1) s = .next t ∧
      t.result = (h32 s.k buf s.seed).zeroExtend 64 ∧ t.done = true ∧ t.busy = false ∧ t.upc = .idle ∧
      t.size = s.size ∧ t.data = s.data ∧ t.seed = s.seed ∧ t.k = s.k ∧ ∀ a, t.mem.byteAt a = s.mem.byteAt a

/-- A command issues exactly the reads of the access list, in order (20_memory.md R66, R77, which the spec derives or
decides; the log of the reads is the model's own field, log 10, in the reference decomposition, log 24). -/
def Obligations.CommandIssuesItsAccessList : Prop :=
  ∀ (s : State) (buf : List Byte) (opl : BitVec 1) (w : Word), s.busy = false → s.mem.wf = true →
    s.size.toNat = buf.length → HoldsAt s.mem s.data buf → (opl = 0 ∧ w = 1 ∨ opl = 1 ∧ w = 2) →
    s.turns = [.host (.writeReg 0 w)] →
    ∃ t : State, Sys2Proof.core.run (1 + uopCount buf.length opl) s = .next t ∧
      t.reads = accessList s.data buf.length

/-- Determinism (45_commands.md R207, 00_scope.md R3): two commands with the same opcode, size, seed, constants and window
bytes give the same `RESULT`, wherever their buffers stand and whatever else differs between the two blocks. -/
def Obligations.ResultDependsOnTheOperandsAlone : Prop :=
  ∀ (s s' t t' : State) (buf : List Byte) (opl : BitVec 1) (w : Word), (opl = 0 ∧ w = 1 ∨ opl = 1 ∧ w = 2) →
    s.busy = false → s'.busy = false → s.mem.wf = true → s'.mem.wf = true → s.k = s'.k → s.seed = s'.seed →
    s.size = s'.size → s.size.toNat = buf.length → HoldsAt s.mem s.data buf → HoldsAt s'.mem s'.data buf →
    s.turns = [.host (.writeReg 0 w)] → s'.turns = [.host (.writeReg 0 w)] →
    Sys2Proof.core.run (1 + uopCount buf.length opl) s = .next t →
    Sys2Proof.core.run (1 + uopCount buf.length opl) s' = .next t' → t.result = t'.result

/-- 32-bit fold consistency (44_finalizer.md R192, which the spec derives): the result of HASH32 is the fold of the result
of HASH64 on the same operands. -/
def Obligations.Hash32IsTheFoldOfHash64 : Prop :=
  ∀ (s t t' : State) (buf : List Byte), s.busy = false → s.mem.wf = true → s.size.toNat = buf.length →
    HoldsAt s.mem s.data buf →
    Sys2Proof.core.run (1 + uopCount buf.length 0) { s with turns := [.host (.writeReg 0 1)] } = .next t →
    Sys2Proof.core.run (1 + uopCount buf.length 1) { s with turns := [.host (.writeReg 0 2)] } = .next t' →
    t'.result.toNat = (t.result - (t.result >>> 32)).toNat % 2 ^ 32

/-- Operand registers may be rewritten while a command runs (70_reset_and_hazards.md R267, 10_state.md R43): the core's step
and a host write to any register but `CMD` commute. -/
def Obligations.OperandWritesCommuteWithTheCore : Prop :=
  ∀ (s t : State) (reg : Nat) (w : Word), s.turns = [] → step s = .next t →
    step (writeRegister reg w s) = .next (writeRegister reg w t)

/-! ## The host port, reset and the host's memory -/

/-- A whole-register read has no side effect on the block and returns the register (10_state.md R42); the word it returns
stands in `hostRead`, the model's own field (log 12). -/
def Obligations.RegisterReadsReturnTheRegister : Prop :=
  ∀ (s : State) (rest : List Turn),
    (s.turns = .host (.readReg 1) :: rest →
      step s = .next { s with turns := rest, hostRead := (if s.busy then 1 else 0) + (if s.done then 2 else 0) }) ∧
    (s.turns = .host (.readReg 2) :: rest → step s = .next { s with turns := rest, hostRead := s.size }) ∧
    (s.turns = .host (.readReg 3) :: rest → step s = .next { s with turns := rest, hostRead := s.data }) ∧
    (s.turns = .host (.readReg 4) :: rest → step s = .next { s with turns := rest, hostRead := s.seed }) ∧
    (s.turns = .host (.readReg 5) :: rest → s.done = true →
      step s = .next { s with turns := rest, hostRead := s.result })

/-- The platform's bus (00_scope.md R5, 10_state.md R22): register `n` sits at `REGBASE + n * stride`, and where the six
registers do not overlap, a 64-bit access there is the access to register `n`, `CMD` included. That the address is linear
and 64 bits wide is the model's (log 20). -/
def Obligations.BusAccessReachesTheNumberedRegister : Prop :=
  ∀ (s : State) (n : Nat) (rest : List Turn), n ≤ 5 → 8 ≤ s.bus.stride.toNat → 5 * s.bus.stride.toNat + 8 ≤ 2 ^ 64 →
    (∀ w, s.turns = .host (.busWrite (s.bus.base + BitVec.ofNat 64 n * s.bus.stride) .w8 w) :: rest →
      step s = step { s with turns := .host (.writeReg n w) :: rest }) ∧
    (s.turns = .host (.busRead (s.bus.base + BitVec.ofNat 64 n * s.bus.stride) .w8) :: rest →
      step s = step { s with turns := .host (.readReg n) :: rest })

/-- A bus access one of whose bytes is a byte of a register, but which is not that register whole, narrower or astride, is
refused (10_state.md R42, U7; log 7); one that meets no register writes nothing of the block and reads some value (R22; log
20). Whatever the places of the registers are. -/
def Obligations.BusAccessElsewhereReachesNoRegister : Prop :=
  ∀ (s : State) (x w : Word) (width : ReadWidth) (rest : List Turn),
    (∀ n i j, n ≤ 5 → i < ReadWidth.bytes width → j < 8 →
      x + BitVec.ofNat 64 i = s.bus.base + BitVec.ofNat 64 n * s.bus.stride + BitVec.ofNat 64 j →
      ¬ (x = s.bus.base + BitVec.ofNat 64 n * s.bus.stride ∧ width = .w8) →
      (s.turns = .host (.busWrite x width w) :: rest → step s = .refused .partialAccess) ∧
      (s.turns = .host (.busRead x width) :: rest → step s = .refused .partialAccess)) ∧
    ((∀ n i j, n ≤ 5 → i < ReadWidth.bytes width → j < 8 →
      x + BitVec.ofNat 64 i ≠ s.bus.base + BitVec.ofNat 64 n * s.bus.stride + BitVec.ofNat 64 j) →
      (s.turns = .host (.busWrite x width w) :: rest → step s = .next { s with turns := rest }) ∧
      (s.turns = .host (.busRead x width) :: rest →
        ∃ v, step s = .next { s with turns := rest, hostRead := v, freeIdx := s.freeIdx + 1 }))

/-- A read the spec calls unspecified, of `CMD`, of a number above 5, or of `RESULT` while `DONE = 0`, completes with some
value and changes nothing of the block (10_state.md R22, R23, R28; log 8, 12). -/
def Obligations.UnspecifiedReadsReturnSomeValue : Prop :=
  ∀ (s : State) (reg : Nat) (rest : List Turn), s.turns = .host (.readReg reg) :: rest →
    (reg = 0 ∨ reg ≥ 6 ∨ reg = 5 ∧ s.done = false) →
    ∃ v, step s = .next { s with turns := rest, hostRead := v, freeIdx := s.freeIdx + 1 }

/-- Whole-register writes (10_state.md R22, R24 to R28): 2, 3 and 4 replace the register; 1, 5 and numbers above 5 are
ignored; an access that is not a whole-register access is refused (R42, U7; log 7). -/
def Obligations.RegisterWritesReplaceOrAreIgnored : Prop :=
  ∀ (s : State) (reg : Nat) (w : Word) (rest : List Turn),
    (s.turns = .host (.writeReg reg w) :: rest →
      (reg = 2 → step s = .next { s with turns := rest, size := w }) ∧
      (reg = 3 → step s = .next { s with turns := rest, data := w }) ∧
      (reg = 4 → step s = .next { s with turns := rest, seed := w }) ∧
      (reg = 1 ∨ reg ≥ 5 → step s = .next { s with turns := rest })) ∧
    (s.turns = .host (.partialReg reg) :: rest → step s = .refused .partialAccess)

/-- 10_state.md R41: after reset, at power-on or applied at any time, the registers the rule gives a value have it and
the constants are unchanged; of the registers it calls unspecified nothing is said. -/
def Obligations.ResetLeavesTheStatedValues : Prop :=
  (State.reset.upc = .idle ∧ State.reset.busy = false ∧ State.reset.done = false ∧ State.reset.size = 0 ∧
    State.reset.data = 0 ∧ State.reset.seed = 0 ∧
    State.reset.k = ⟨Config.k 0, Config.k 1, Config.k 2, Config.k 3⟩) ∧
  (∀ (s : State) (rest : List Turn), s.turns = .reset :: rest →
    ∃ t, step s = .next t ∧ t.upc = .idle ∧ t.busy = false ∧ t.done = false ∧ t.size = 0 ∧ t.data = 0 ∧ t.seed = 0 ∧
      t.k = s.k ∧ t.upc.code = 0 ∧ t.status = 0)

/-- Reset abandons a running command (70_reset_and_hazards.md R261): no further read is issued, the input space keeps every
byte, and the next command may be launched at once (R262). -/
def Obligations.ResetAbandonsTheCommand : Prop :=
  ∀ (s : State), s.turns = [.reset] →
    ∃ t, step s = .next t ∧ t.reads = s.reads ∧ (∀ a, t.mem.byteAt a = s.mem.byteAt a) ∧ step t = .next t ∧
      ∃ u, exec .hash64 t = .next u ∧ u.busy = true ∧ u.upc = .salt

/-- The host's store puts one byte and no other (model: log 6); one that would change a byte of a running command's window
is refused (70_reset_and_hazards.md R265, U3). -/
def Obligations.HostStorePutsOneByte : Prop :=
  ∀ (s : State) (a : Word) (b : Byte) (rest : List Turn), s.turns = .host (.store a b) :: rest →
    (s.busy = false ∨ s.inWindow a = false ∨ s.mem.byteAt a.toNat = some b →
      ∃ t, step s = .next t ∧ t = { s with turns := rest, mem := t.mem } ∧ t.mem.byteAt a.toNat = some b ∧
        (∀ x, x ≠ a.toNat → t.mem.byteAt x = s.mem.byteAt x) ∧ (s.mem.wf = true → t.mem.wf = true)) ∧
    (s.busy = true → s.inWindow a = true → s.mem.byteAt a.toNat ≠ some b → step s = .refused .windowChanged)

/-- Unreachable codes are refused, not given a meaning: `UPC = PACK` with `N > 16` (30_encoding.md R99, U10) and the request
codes 110 and 111 (R98, U11), log 16. -/
def Obligations.UnreachableCodesAreRefused : Prop :=
  (∀ s : State, s.turns = [] → s.upc = .pack → 16 < s.rN.toNat → step s = .refused .packSizeAbove16) ∧
  (∀ (s : State) (a b : Word) (rest : List Turn), s.turns = .prim 0b110 a b :: rest ∨ s.turns = .prim 0b111 a b :: rest →
    step s = .refused .reservedRequest)
end

