-- ==== Sys2Proof/Laws/Memory.lean ====
section
/-! SUPPORT. The input space: read after store, the canonical form, the readable range, and what a reader returns. -/

namespace Sys2Proof.Machine

/-! ### Store and read -/

@[simp] theorem Memory.byteAt_nil (a : Nat) : Memory.byteAt [] a = none := rfl

theorem Memory.byteAt_cons (k : Nat) (c : Byte) (rest : Memory) (a : Nat) :
    Memory.byteAt ((k, c) :: rest) a = if k = a then some c else Memory.byteAt rest a := rfl

theorem Memory.byteAt_store_same (m : Memory) (a : Nat) (b : Byte) : (m.store a b).byteAt a = some b := by
  induction m with
  | nil => simp [Memory.store, Memory.byteAt]
  | cons e rest ih =>
    obtain ⟨k, c⟩ := e
    simp only [Memory.store]
    split
    · simp [Memory.byteAt]
    · split
      · simp [Memory.byteAt]
      · rename_i h1 h2
        simp [Memory.byteAt, ih, Ne.symm h2]

theorem Memory.byteAt_store_other (m : Memory) (a : Nat) (b : Byte) {x : Nat} (h : x ≠ a) :
    (m.store a b).byteAt x = m.byteAt x := by
  induction m with
  | nil => simp [Memory.store, Memory.byteAt, Ne.symm h]
  | cons e rest ih =>
    obtain ⟨k, c⟩ := e
    simp only [Memory.store]
    split
    · simp [Memory.byteAt, Ne.symm h]
    · split
      · rename_i h1 h2
        subst h2
        simp [Memory.byteAt, Ne.symm h]
      · simp [Memory.byteAt, ih]

/-! ### The canonical form -/

theorem Memory.wfFrom_cons (lo k : Nat) (c : Byte) (rest : Memory) :
    Memory.wfFrom lo ((k, c) :: rest) = true ↔ lo ≤ k ∧ k < 2 ^ 64 ∧ Memory.wfFrom (k + 1) rest = true := by
  simp [Memory.wfFrom, and_assoc]

theorem Memory.wfFrom_store {m : Memory} {lo a : Nat} {b : Byte} (hm : m.wfFrom lo = true) (hlo : lo ≤ a)
    (ha : a < 2 ^ 64) : (m.store a b).wfFrom lo = true := by
  induction m generalizing lo with
  | nil => simp [Memory.store, Memory.wfFrom, hlo]; omega
  | cons e rest ih =>
    obtain ⟨k, c⟩ := e
    obtain ⟨h1, h2, h3⟩ := (Memory.wfFrom_cons ..).1 hm
    simp only [Memory.store]
    split
    · simp only [Memory.wfFrom_cons]
      exact ⟨hlo, ha, by omega, h2, h3⟩
    · split
      · rename_i _ he
        subst he
        exact (Memory.wfFrom_cons ..).2 ⟨h1, h2, h3⟩
      · exact (Memory.wfFrom_cons ..).2 ⟨h1, h2, ih h3 (by omega)⟩

/-- A store keeps the canonical form. -/
theorem Memory.wf_store {m : Memory} (hm : m.wf = true) (a : Word) (b : Byte) : (m.store a.toNat b).wf = true :=
  Memory.wfFrom_store hm (Nat.zero_le _) a.isLt

theorem Memory.wf_nil : Memory.wf [] = true := rfl

/-- Nothing is listed below the bound of a rising list. -/
theorem Memory.byteAt_eq_none_of_lt {m : Memory} {lo a : Nat} (hm : m.wfFrom lo = true) (ha : a < lo) :
    m.byteAt a = none := by
  induction m generalizing lo with
  | nil => rfl
  | cons e rest ih =>
    obtain ⟨k, c⟩ := e
    obtain ⟨h1, _, h3⟩ := (Memory.wfFrom_cons ..).1 hm
    rw [Memory.byteAt_cons, if_neg (by omega)]
    exact ih h3 (by omega)

/-! ### The readable range -/

theorem Memory.isSome_cons {k : Nat} {c : Byte} {rest : Memory} {a : Nat} (h : (rest.byteAt a).isSome) :
    (Memory.byteAt ((k, c) :: rest) a).isSome := by
  rw [Memory.byteAt_cons]
  split <;> simp [h]

/-- What the range check says, whatever the list. -/
theorem Memory.isSome_of_covers {m : Memory} {lo hi : Nat} (h : m.covers lo hi = true) {a : Nat} (h1 : lo ≤ a)
    (h2 : a < hi) : (m.byteAt a).isSome := by
  induction m generalizing lo with
  | nil => simp [Memory.covers] at h; omega
  | cons e rest ih =>
    obtain ⟨k, c⟩ := e
    simp only [Memory.covers] at h
    split at h
    · omega
    · split at h
      · exact Memory.isSome_cons (ih h h1)
      · split at h
        · rename_i _ _ hk
          by_cases ha : k = a
          · simp [Memory.byteAt_cons, ha]
          · exact Memory.isSome_cons (ih h (by omega))
        · simp at h

/-- On a canonical memory the range check finds every readable range. -/
theorem Memory.covers_of_isSome {m : Memory} {l lo hi : Nat} (hm : m.wfFrom l = true)
    (h : ∀ a, lo ≤ a → a < hi → (m.byteAt a).isSome) : m.covers lo hi = true := by
  induction m generalizing l lo with
  | nil =>
    simp only [Memory.covers, decide_eq_true_eq]
    by_contra hc
    simpa using h lo le_rfl (by omega)
  | cons e rest ih =>
    obtain ⟨k, c⟩ := e
    obtain ⟨_, _, h3⟩ := (Memory.wfFrom_cons ..).1 hm
    simp only [Memory.covers]
    split
    · rfl
    · rename_i hlt
      split
      · exact ih h3 fun a ha1 ha2 => by
          have := h a ha1 ha2
          rwa [Memory.byteAt_cons, if_neg (by omega)] at this
      · split
        · exact ih h3 fun a ha1 ha2 => by
            have := h a (by omega) ha2
            rwa [Memory.byteAt_cons, if_neg (by omega)] at this
        · have := h lo le_rfl (by omega)
          rw [Memory.byteAt_cons, if_neg (by omega), Memory.byteAt_eq_none_of_lt h3 (by omega)] at this
          simp at this

/-- A canonical memory passes the launch's checks exactly when the window is readable. -/
theorem Memory.covers_iff_readable {m : Memory} (hm : m.wf = true) {base n : Word}
    (hw : base.toNat + n.toNat ≤ 2 ^ 64) :
    m.covers base.toNat (base.toNat + n.toNat) = true ↔ Readable m base n :=
  ⟨fun h => ⟨hw, fun _ h1 h2 => Memory.isSome_of_covers h h1 h2⟩, fun h => Memory.covers_of_isSome hm h.2⟩

/-! ### Readers -/

theorem addr_succ (a : Word) (j : Nat) : a + BitVec.ofNat 64 (j + 1) = a + 1 + BitVec.ofNat 64 j := by
  rw [BitVec.add_assoc]
  congr 1
  apply BitVec.eq_of_toNat_eq
  simp [Nat.add_comm]

/-- `MemRead` gives the bytes in ascending order, and only if each address holds one. -/
theorem memRead_eq_some {m : Memory} {a : Word} {n : Nat} {bs : List Byte} :
    memRead m a n = some bs ↔
      bs.length = n ∧ ∀ j (h : j < bs.length), m.byteAt (a + BitVec.ofNat 64 j).toNat = some (bs[j]) := by
  induction n generalizing a bs with
  | zero =>
    simp only [memRead, Option.some.injEq]
    constructor
    · rintro rfl; simp
    · rintro ⟨h, -⟩; exact (List.length_eq_zero_iff.1 h).symm
  | succ n ih =>
    simp only [memRead]
    constructor
    · intro h
      split at h
      · rename_i b bs' hb hbs
        obtain rfl := Option.some.inj h
        obtain ⟨hl, hj⟩ := ih.1 hbs
        refine ⟨by simp [hl], fun j hj' => ?_⟩
        cases j with
        | zero => simpa using hb
        | succ j => rw [addr_succ]; exact hj j (by simpa using hj')
      · simp at h
    · rintro ⟨hl, hj⟩
      cases bs with
      | nil => simp at hl
      | cons b bs =>
        have h0 := hj 0 (by simp)
        have hr : memRead m (a + 1) n = some bs :=
          ih.2 ⟨by simpa using hl, fun j hj' => by
            rw [← addr_succ]; exact hj (j + 1) (by simpa using hj')⟩
        rw [show a + BitVec.ofNat 64 0 = a by simp] at h0
        rw [h0, hr]
        rfl

theorem byteAt_holdsAt {m : Memory} {base : Word} {buf : List Byte} (h : HoldsAt m base buf) {j : Nat}
    (hj : j < buf.length) : m.byteAt (base + BitVec.ofNat 64 j).toNat = some (buf[j]) := by
  rw [← h.2 j hj]
  congr 1
  have := h.1
  have := base.isLt
  simp only [BitVec.toNat_add, BitVec.toNat_ofNat]
  omega

/-- A read inside a buffer gives the bytes that stand there. -/
theorem memRead_holdsAt {m : Memory} {base : Word} {buf : List Byte} (h : HoldsAt m base buf) {o n : Nat}
    (ho : o + n ≤ buf.length) :
    memRead m (base + BitVec.ofNat 64 o) n = some ((buf.drop o).take n) := by
  rw [memRead_eq_some]
  have hl : ((buf.drop o).take n).length = n := by simp; omega
  refine ⟨hl, fun j hj => ?_⟩
  rw [BitVec.add_assoc]
  have he : BitVec.ofNat 64 o + BitVec.ofNat 64 j = BitVec.ofNat 64 (o + j) := by
    apply BitVec.eq_of_toNat_eq; simp
  rw [he, byteAt_holdsAt h (by omega)]
  simp

/-- A reader inside a buffer returns the little-endian value of the bytes that stand there. -/
theorem rd_holdsAt {m : Memory} {base : Word} {buf : List Byte} (h : HoldsAt m base buf) {o : Nat} {w : ReadWidth}
    (ho : o + ReadWidth.bytes w ≤ buf.length) :
    rd m w (base + BitVec.ofNat 64 o) = some (le ((buf.drop o).take (ReadWidth.bytes w))) := by
  simp [rd, memRead_holdsAt h ho]

/-- A readable range holds some buffer of its length. -/
theorem exists_holdsAt {m : Memory} {base n : Word} (h : Readable m base n) :
    ∃ buf : List Byte, buf.length = n.toNat ∧ HoldsAt m base buf := by
  refine ⟨(List.range n.toNat).map fun j => (m.byteAt (base.toNat + j)).getD 0, by simp, by simpa using h.1,
    fun j hj => ?_⟩
  simp only [List.length_map, List.length_range] at hj
  obtain ⟨b, hb⟩ := Option.isSome_iff_exists.1 (h.2 (base.toNat + j) (by omega) (by omega))
  simp [hb]

/-- A buffer that stands in the input space makes its range readable. -/
theorem readable_of_holdsAt {m : Memory} {base n : Word} {buf : List Byte} (hl : buf.length = n.toNat)
    (h : HoldsAt m base buf) : Readable m base n := by
  refine ⟨hl ▸ h.1, fun a h1 h2 => ?_⟩
  have := h.2 (a - base.toNat) (by omega)
  rw [show base.toNat + (a - base.toNat) = a by omega] at this
  simp [this]

end Sys2Proof.Machine
end

