-- ==== Sys2Proof/Laws/State.lean ====
section
/-! SUPPORT. One lemma per field per update of State, true by definition, so that no proof unfolds a record update. -/

namespace Sys2Proof.Machine

variable (s : State)

/-! ### `mum` -/

@[simp] theorem State.mum_k (a b : Word) : (s.mum a b).k = s.k := rfl
@[simp] theorem State.mum_bus (a b : Word) : (s.mum a b).bus = s.bus := rfl
@[simp] theorem State.mum_busy (a b : Word) : (s.mum a b).busy = s.busy := rfl
@[simp] theorem State.mum_done (a b : Word) : (s.mum a b).done = s.done := rfl
@[simp] theorem State.mum_size (a b : Word) : (s.mum a b).size = s.size := rfl
@[simp] theorem State.mum_data (a b : Word) : (s.mum a b).data = s.data := rfl
@[simp] theorem State.mum_seed (a b : Word) : (s.mum a b).seed = s.seed := rfl
@[simp] theorem State.mum_result (a b : Word) : (s.mum a b).result = s.result := rfl
@[simp] theorem State.mum_rX0 (a b : Word) : (s.mum a b).rX0 = s.rX0 := rfl
@[simp] theorem State.mum_rX1 (a b : Word) : (s.mum a b).rX1 = s.rX1 := rfl
@[simp] theorem State.mum_rS (a b : Word) : (s.mum a b).rS = s.rS := rfl
@[simp] theorem State.mum_rS0 (a b : Word) : (s.mum a b).rS0 = s.rS0 := rfl
@[simp] theorem State.mum_rS1 (a b : Word) : (s.mum a b).rS1 = s.rS1 := rfl
@[simp] theorem State.mum_rMA (a b : Word) : (s.mum a b).rMA = (mul128 a b).1 := rfl
@[simp] theorem State.mum_rMB (a b : Word) : (s.mum a b).rMB = (mul128 a b).2 := rfl
@[simp] theorem State.mum_rR (a b : Word) : (s.mum a b).rR = s.rR := rfl
@[simp] theorem State.mum_rP (a b : Word) : (s.mum a b).rP = s.rP := rfl
@[simp] theorem State.mum_rI (a b : Word) : (s.mum a b).rI = s.rI := rfl
@[simp] theorem State.mum_rN (a b : Word) : (s.mum a b).rN = s.rN := rfl
@[simp] theorem State.mum_rOPL (a b : Word) : (s.mum a b).rOPL = s.rOPL := rfl
@[simp] theorem State.mum_upc (a b : Word) : (s.mum a b).upc = s.upc := rfl
@[simp] theorem State.mum_mem (a b : Word) : (s.mum a b).mem = s.mem := rfl
@[simp] theorem State.mum_turns (a b : Word) : (s.mum a b).turns = s.turns := rfl
@[simp] theorem State.mum_hostRead (a b : Word) : (s.mum a b).hostRead = s.hostRead := rfl
@[simp] theorem State.mum_ret (a b : Word) : (s.mum a b).ret = s.ret := rfl
@[simp] theorem State.mum_reads (a b : Word) : (s.mum a b).reads = s.reads := rfl
@[simp] theorem State.mum_freeIdx (a b : Word) : (s.mum a b).freeIdx = s.freeIdx := rfl

/-! ### `setLanes` -/

@[simp] theorem State.setLanes_k (x0 x1 : Word) : (s.setLanes x0 x1).k = s.k := rfl
@[simp] theorem State.setLanes_bus (x0 x1 : Word) : (s.setLanes x0 x1).bus = s.bus := rfl
@[simp] theorem State.setLanes_busy (x0 x1 : Word) : (s.setLanes x0 x1).busy = s.busy := rfl
@[simp] theorem State.setLanes_done (x0 x1 : Word) : (s.setLanes x0 x1).done = s.done := rfl
@[simp] theorem State.setLanes_size (x0 x1 : Word) : (s.setLanes x0 x1).size = s.size := rfl
@[simp] theorem State.setLanes_data (x0 x1 : Word) : (s.setLanes x0 x1).data = s.data := rfl
@[simp] theorem State.setLanes_seed (x0 x1 : Word) : (s.setLanes x0 x1).seed = s.seed := rfl
@[simp] theorem State.setLanes_result (x0 x1 : Word) : (s.setLanes x0 x1).result = s.result := rfl
@[simp] theorem State.setLanes_rX0 (x0 x1 : Word) : (s.setLanes x0 x1).rX0 = x0 := rfl
@[simp] theorem State.setLanes_rX1 (x0 x1 : Word) : (s.setLanes x0 x1).rX1 = x1 := rfl
@[simp] theorem State.setLanes_rS (x0 x1 : Word) : (s.setLanes x0 x1).rS = s.rS := rfl
@[simp] theorem State.setLanes_rS0 (x0 x1 : Word) : (s.setLanes x0 x1).rS0 = s.rS0 := rfl
@[simp] theorem State.setLanes_rS1 (x0 x1 : Word) : (s.setLanes x0 x1).rS1 = s.rS1 := rfl
@[simp] theorem State.setLanes_rMA (x0 x1 : Word) : (s.setLanes x0 x1).rMA = s.rMA := rfl
@[simp] theorem State.setLanes_rMB (x0 x1 : Word) : (s.setLanes x0 x1).rMB = s.rMB := rfl
@[simp] theorem State.setLanes_rR (x0 x1 : Word) : (s.setLanes x0 x1).rR = s.rR := rfl
@[simp] theorem State.setLanes_rP (x0 x1 : Word) : (s.setLanes x0 x1).rP = s.rP := rfl
@[simp] theorem State.setLanes_rI (x0 x1 : Word) : (s.setLanes x0 x1).rI = s.rI := rfl
@[simp] theorem State.setLanes_rN (x0 x1 : Word) : (s.setLanes x0 x1).rN = s.rN := rfl
@[simp] theorem State.setLanes_rOPL (x0 x1 : Word) : (s.setLanes x0 x1).rOPL = s.rOPL := rfl
@[simp] theorem State.setLanes_upc (x0 x1 : Word) : (s.setLanes x0 x1).upc = s.upc := rfl
@[simp] theorem State.setLanes_mem (x0 x1 : Word) : (s.setLanes x0 x1).mem = s.mem := rfl
@[simp] theorem State.setLanes_turns (x0 x1 : Word) : (s.setLanes x0 x1).turns = s.turns := rfl
@[simp] theorem State.setLanes_hostRead (x0 x1 : Word) : (s.setLanes x0 x1).hostRead = s.hostRead := rfl
@[simp] theorem State.setLanes_ret (x0 x1 : Word) : (s.setLanes x0 x1).ret = s.ret := rfl
@[simp] theorem State.setLanes_reads (x0 x1 : Word) : (s.setLanes x0 x1).reads = s.reads := rfl
@[simp] theorem State.setLanes_freeIdx (x0 x1 : Word) : (s.setLanes x0 x1).freeIdx = s.freeIdx := rfl

/-! ### `setS` -/

@[simp] theorem State.setS_k (v : Word) : (s.setS v).k = s.k := rfl
@[simp] theorem State.setS_bus (v : Word) : (s.setS v).bus = s.bus := rfl
@[simp] theorem State.setS_busy (v : Word) : (s.setS v).busy = s.busy := rfl
@[simp] theorem State.setS_done (v : Word) : (s.setS v).done = s.done := rfl
@[simp] theorem State.setS_size (v : Word) : (s.setS v).size = s.size := rfl
@[simp] theorem State.setS_data (v : Word) : (s.setS v).data = s.data := rfl
@[simp] theorem State.setS_seed (v : Word) : (s.setS v).seed = s.seed := rfl
@[simp] theorem State.setS_result (v : Word) : (s.setS v).result = s.result := rfl
@[simp] theorem State.setS_rX0 (v : Word) : (s.setS v).rX0 = s.rX0 := rfl
@[simp] theorem State.setS_rX1 (v : Word) : (s.setS v).rX1 = s.rX1 := rfl
@[simp] theorem State.setS_rS (v : Word) : (s.setS v).rS = v := rfl
@[simp] theorem State.setS_rS0 (v : Word) : (s.setS v).rS0 = s.rS0 := rfl
@[simp] theorem State.setS_rS1 (v : Word) : (s.setS v).rS1 = s.rS1 := rfl
@[simp] theorem State.setS_rMA (v : Word) : (s.setS v).rMA = s.rMA := rfl
@[simp] theorem State.setS_rMB (v : Word) : (s.setS v).rMB = s.rMB := rfl
@[simp] theorem State.setS_rR (v : Word) : (s.setS v).rR = s.rR := rfl
@[simp] theorem State.setS_rP (v : Word) : (s.setS v).rP = s.rP := rfl
@[simp] theorem State.setS_rI (v : Word) : (s.setS v).rI = s.rI := rfl
@[simp] theorem State.setS_rN (v : Word) : (s.setS v).rN = s.rN := rfl
@[simp] theorem State.setS_rOPL (v : Word) : (s.setS v).rOPL = s.rOPL := rfl
@[simp] theorem State.setS_upc (v : Word) : (s.setS v).upc = s.upc := rfl
@[simp] theorem State.setS_mem (v : Word) : (s.setS v).mem = s.mem := rfl
@[simp] theorem State.setS_turns (v : Word) : (s.setS v).turns = s.turns := rfl
@[simp] theorem State.setS_hostRead (v : Word) : (s.setS v).hostRead = s.hostRead := rfl
@[simp] theorem State.setS_ret (v : Word) : (s.setS v).ret = s.ret := rfl
@[simp] theorem State.setS_reads (v : Word) : (s.setS v).reads = s.reads := rfl
@[simp] theorem State.setS_freeIdx (v : Word) : (s.setS v).freeIdx = s.freeIdx := rfl

/-! ### `setBulk` -/

@[simp] theorem State.setBulk_k (v0 v1 : Word) : (s.setBulk v0 v1).k = s.k := rfl
@[simp] theorem State.setBulk_bus (v0 v1 : Word) : (s.setBulk v0 v1).bus = s.bus := rfl
@[simp] theorem State.setBulk_busy (v0 v1 : Word) : (s.setBulk v0 v1).busy = s.busy := rfl
@[simp] theorem State.setBulk_done (v0 v1 : Word) : (s.setBulk v0 v1).done = s.done := rfl
@[simp] theorem State.setBulk_size (v0 v1 : Word) : (s.setBulk v0 v1).size = s.size := rfl
@[simp] theorem State.setBulk_data (v0 v1 : Word) : (s.setBulk v0 v1).data = s.data := rfl
@[simp] theorem State.setBulk_seed (v0 v1 : Word) : (s.setBulk v0 v1).seed = s.seed := rfl
@[simp] theorem State.setBulk_result (v0 v1 : Word) : (s.setBulk v0 v1).result = s.result := rfl
@[simp] theorem State.setBulk_rX0 (v0 v1 : Word) : (s.setBulk v0 v1).rX0 = s.rX0 := rfl
@[simp] theorem State.setBulk_rX1 (v0 v1 : Word) : (s.setBulk v0 v1).rX1 = s.rX1 := rfl
@[simp] theorem State.setBulk_rS (v0 v1 : Word) : (s.setBulk v0 v1).rS = s.rS := rfl
@[simp] theorem State.setBulk_rS0 (v0 v1 : Word) : (s.setBulk v0 v1).rS0 = v0 := rfl
@[simp] theorem State.setBulk_rS1 (v0 v1 : Word) : (s.setBulk v0 v1).rS1 = v1 := rfl
@[simp] theorem State.setBulk_rMA (v0 v1 : Word) : (s.setBulk v0 v1).rMA = s.rMA := rfl
@[simp] theorem State.setBulk_rMB (v0 v1 : Word) : (s.setBulk v0 v1).rMB = s.rMB := rfl
@[simp] theorem State.setBulk_rR (v0 v1 : Word) : (s.setBulk v0 v1).rR = s.rR := rfl
@[simp] theorem State.setBulk_rP (v0 v1 : Word) : (s.setBulk v0 v1).rP = s.rP := rfl
@[simp] theorem State.setBulk_rI (v0 v1 : Word) : (s.setBulk v0 v1).rI = s.rI := rfl
@[simp] theorem State.setBulk_rN (v0 v1 : Word) : (s.setBulk v0 v1).rN = s.rN := rfl
@[simp] theorem State.setBulk_rOPL (v0 v1 : Word) : (s.setBulk v0 v1).rOPL = s.rOPL := rfl
@[simp] theorem State.setBulk_upc (v0 v1 : Word) : (s.setBulk v0 v1).upc = s.upc := rfl
@[simp] theorem State.setBulk_mem (v0 v1 : Word) : (s.setBulk v0 v1).mem = s.mem := rfl
@[simp] theorem State.setBulk_turns (v0 v1 : Word) : (s.setBulk v0 v1).turns = s.turns := rfl
@[simp] theorem State.setBulk_hostRead (v0 v1 : Word) : (s.setBulk v0 v1).hostRead = s.hostRead := rfl
@[simp] theorem State.setBulk_ret (v0 v1 : Word) : (s.setBulk v0 v1).ret = s.ret := rfl
@[simp] theorem State.setBulk_reads (v0 v1 : Word) : (s.setBulk v0 v1).reads = s.reads := rfl
@[simp] theorem State.setBulk_freeIdx (v0 v1 : Word) : (s.setBulk v0 v1).freeIdx = s.freeIdx := rfl

/-! ### `setR` -/

@[simp] theorem State.setR_k (v : Word) : (s.setR v).k = s.k := rfl
@[simp] theorem State.setR_bus (v : Word) : (s.setR v).bus = s.bus := rfl
@[simp] theorem State.setR_busy (v : Word) : (s.setR v).busy = s.busy := rfl
@[simp] theorem State.setR_done (v : Word) : (s.setR v).done = s.done := rfl
@[simp] theorem State.setR_size (v : Word) : (s.setR v).size = s.size := rfl
@[simp] theorem State.setR_data (v : Word) : (s.setR v).data = s.data := rfl
@[simp] theorem State.setR_seed (v : Word) : (s.setR v).seed = s.seed := rfl
@[simp] theorem State.setR_result (v : Word) : (s.setR v).result = s.result := rfl
@[simp] theorem State.setR_rX0 (v : Word) : (s.setR v).rX0 = s.rX0 := rfl
@[simp] theorem State.setR_rX1 (v : Word) : (s.setR v).rX1 = s.rX1 := rfl
@[simp] theorem State.setR_rS (v : Word) : (s.setR v).rS = s.rS := rfl
@[simp] theorem State.setR_rS0 (v : Word) : (s.setR v).rS0 = s.rS0 := rfl
@[simp] theorem State.setR_rS1 (v : Word) : (s.setR v).rS1 = s.rS1 := rfl
@[simp] theorem State.setR_rMA (v : Word) : (s.setR v).rMA = s.rMA := rfl
@[simp] theorem State.setR_rMB (v : Word) : (s.setR v).rMB = s.rMB := rfl
@[simp] theorem State.setR_rR (v : Word) : (s.setR v).rR = v := rfl
@[simp] theorem State.setR_rP (v : Word) : (s.setR v).rP = s.rP := rfl
@[simp] theorem State.setR_rI (v : Word) : (s.setR v).rI = s.rI := rfl
@[simp] theorem State.setR_rN (v : Word) : (s.setR v).rN = s.rN := rfl
@[simp] theorem State.setR_rOPL (v : Word) : (s.setR v).rOPL = s.rOPL := rfl
@[simp] theorem State.setR_upc (v : Word) : (s.setR v).upc = s.upc := rfl
@[simp] theorem State.setR_mem (v : Word) : (s.setR v).mem = s.mem := rfl
@[simp] theorem State.setR_turns (v : Word) : (s.setR v).turns = s.turns := rfl
@[simp] theorem State.setR_hostRead (v : Word) : (s.setR v).hostRead = s.hostRead := rfl
@[simp] theorem State.setR_ret (v : Word) : (s.setR v).ret = s.ret := rfl
@[simp] theorem State.setR_reads (v : Word) : (s.setR v).reads = s.reads := rfl
@[simp] theorem State.setR_freeIdx (v : Word) : (s.setR v).freeIdx = s.freeIdx := rfl

/-! ### `advance` -/

@[simp] theorem State.advance_k (d : Word) : (s.advance d).k = s.k := rfl
@[simp] theorem State.advance_bus (d : Word) : (s.advance d).bus = s.bus := rfl
@[simp] theorem State.advance_busy (d : Word) : (s.advance d).busy = s.busy := rfl
@[simp] theorem State.advance_done (d : Word) : (s.advance d).done = s.done := rfl
@[simp] theorem State.advance_size (d : Word) : (s.advance d).size = s.size := rfl
@[simp] theorem State.advance_data (d : Word) : (s.advance d).data = s.data := rfl
@[simp] theorem State.advance_seed (d : Word) : (s.advance d).seed = s.seed := rfl
@[simp] theorem State.advance_result (d : Word) : (s.advance d).result = s.result := rfl
@[simp] theorem State.advance_rX0 (d : Word) : (s.advance d).rX0 = s.rX0 := rfl
@[simp] theorem State.advance_rX1 (d : Word) : (s.advance d).rX1 = s.rX1 := rfl
@[simp] theorem State.advance_rS (d : Word) : (s.advance d).rS = s.rS := rfl
@[simp] theorem State.advance_rS0 (d : Word) : (s.advance d).rS0 = s.rS0 := rfl
@[simp] theorem State.advance_rS1 (d : Word) : (s.advance d).rS1 = s.rS1 := rfl
@[simp] theorem State.advance_rMA (d : Word) : (s.advance d).rMA = s.rMA := rfl
@[simp] theorem State.advance_rMB (d : Word) : (s.advance d).rMB = s.rMB := rfl
@[simp] theorem State.advance_rR (d : Word) : (s.advance d).rR = s.rR := rfl
@[simp] theorem State.advance_rP (d : Word) : (s.advance d).rP = s.rP + d := rfl
@[simp] theorem State.advance_rI (d : Word) : (s.advance d).rI = s.rI - d := rfl
@[simp] theorem State.advance_rN (d : Word) : (s.advance d).rN = s.rN := rfl
@[simp] theorem State.advance_rOPL (d : Word) : (s.advance d).rOPL = s.rOPL := rfl
@[simp] theorem State.advance_upc (d : Word) : (s.advance d).upc = s.upc := rfl
@[simp] theorem State.advance_mem (d : Word) : (s.advance d).mem = s.mem := rfl
@[simp] theorem State.advance_turns (d : Word) : (s.advance d).turns = s.turns := rfl
@[simp] theorem State.advance_hostRead (d : Word) : (s.advance d).hostRead = s.hostRead := rfl
@[simp] theorem State.advance_ret (d : Word) : (s.advance d).ret = s.ret := rfl
@[simp] theorem State.advance_reads (d : Word) : (s.advance d).reads = s.reads := rfl
@[simp] theorem State.advance_freeIdx (d : Word) : (s.advance d).freeIdx = s.freeIdx := rfl

/-! ### `goto` -/

@[simp] theorem State.goto_k (u : Upc) : (s.goto u).k = s.k := rfl
@[simp] theorem State.goto_bus (u : Upc) : (s.goto u).bus = s.bus := rfl
@[simp] theorem State.goto_busy (u : Upc) : (s.goto u).busy = s.busy := rfl
@[simp] theorem State.goto_done (u : Upc) : (s.goto u).done = s.done := rfl
@[simp] theorem State.goto_size (u : Upc) : (s.goto u).size = s.size := rfl
@[simp] theorem State.goto_data (u : Upc) : (s.goto u).data = s.data := rfl
@[simp] theorem State.goto_seed (u : Upc) : (s.goto u).seed = s.seed := rfl
@[simp] theorem State.goto_result (u : Upc) : (s.goto u).result = s.result := rfl
@[simp] theorem State.goto_rX0 (u : Upc) : (s.goto u).rX0 = s.rX0 := rfl
@[simp] theorem State.goto_rX1 (u : Upc) : (s.goto u).rX1 = s.rX1 := rfl
@[simp] theorem State.goto_rS (u : Upc) : (s.goto u).rS = s.rS := rfl
@[simp] theorem State.goto_rS0 (u : Upc) : (s.goto u).rS0 = s.rS0 := rfl
@[simp] theorem State.goto_rS1 (u : Upc) : (s.goto u).rS1 = s.rS1 := rfl
@[simp] theorem State.goto_rMA (u : Upc) : (s.goto u).rMA = s.rMA := rfl
@[simp] theorem State.goto_rMB (u : Upc) : (s.goto u).rMB = s.rMB := rfl
@[simp] theorem State.goto_rR (u : Upc) : (s.goto u).rR = s.rR := rfl
@[simp] theorem State.goto_rP (u : Upc) : (s.goto u).rP = s.rP := rfl
@[simp] theorem State.goto_rI (u : Upc) : (s.goto u).rI = s.rI := rfl
@[simp] theorem State.goto_rN (u : Upc) : (s.goto u).rN = s.rN := rfl
@[simp] theorem State.goto_rOPL (u : Upc) : (s.goto u).rOPL = s.rOPL := rfl
@[simp] theorem State.goto_upc (u : Upc) : (s.goto u).upc = u := rfl
@[simp] theorem State.goto_mem (u : Upc) : (s.goto u).mem = s.mem := rfl
@[simp] theorem State.goto_turns (u : Upc) : (s.goto u).turns = s.turns := rfl
@[simp] theorem State.goto_hostRead (u : Upc) : (s.goto u).hostRead = s.hostRead := rfl
@[simp] theorem State.goto_ret (u : Upc) : (s.goto u).ret = s.ret := rfl
@[simp] theorem State.goto_reads (u : Upc) : (s.goto u).reads = s.reads := rfl
@[simp] theorem State.goto_freeIdx (u : Upc) : (s.goto u).freeIdx = s.freeIdx := rfl

/-! ### `logReads` -/

@[simp] theorem State.logReads_k (l : List ReadReq) : (s.logReads l).k = s.k := rfl
@[simp] theorem State.logReads_bus (l : List ReadReq) : (s.logReads l).bus = s.bus := rfl
@[simp] theorem State.logReads_busy (l : List ReadReq) : (s.logReads l).busy = s.busy := rfl
@[simp] theorem State.logReads_done (l : List ReadReq) : (s.logReads l).done = s.done := rfl
@[simp] theorem State.logReads_size (l : List ReadReq) : (s.logReads l).size = s.size := rfl
@[simp] theorem State.logReads_data (l : List ReadReq) : (s.logReads l).data = s.data := rfl
@[simp] theorem State.logReads_seed (l : List ReadReq) : (s.logReads l).seed = s.seed := rfl
@[simp] theorem State.logReads_result (l : List ReadReq) : (s.logReads l).result = s.result := rfl
@[simp] theorem State.logReads_rX0 (l : List ReadReq) : (s.logReads l).rX0 = s.rX0 := rfl
@[simp] theorem State.logReads_rX1 (l : List ReadReq) : (s.logReads l).rX1 = s.rX1 := rfl
@[simp] theorem State.logReads_rS (l : List ReadReq) : (s.logReads l).rS = s.rS := rfl
@[simp] theorem State.logReads_rS0 (l : List ReadReq) : (s.logReads l).rS0 = s.rS0 := rfl
@[simp] theorem State.logReads_rS1 (l : List ReadReq) : (s.logReads l).rS1 = s.rS1 := rfl
@[simp] theorem State.logReads_rMA (l : List ReadReq) : (s.logReads l).rMA = s.rMA := rfl
@[simp] theorem State.logReads_rMB (l : List ReadReq) : (s.logReads l).rMB = s.rMB := rfl
@[simp] theorem State.logReads_rR (l : List ReadReq) : (s.logReads l).rR = s.rR := rfl
@[simp] theorem State.logReads_rP (l : List ReadReq) : (s.logReads l).rP = s.rP := rfl
@[simp] theorem State.logReads_rI (l : List ReadReq) : (s.logReads l).rI = s.rI := rfl
@[simp] theorem State.logReads_rN (l : List ReadReq) : (s.logReads l).rN = s.rN := rfl
@[simp] theorem State.logReads_rOPL (l : List ReadReq) : (s.logReads l).rOPL = s.rOPL := rfl
@[simp] theorem State.logReads_upc (l : List ReadReq) : (s.logReads l).upc = s.upc := rfl
@[simp] theorem State.logReads_mem (l : List ReadReq) : (s.logReads l).mem = s.mem := rfl
@[simp] theorem State.logReads_turns (l : List ReadReq) : (s.logReads l).turns = s.turns := rfl
@[simp] theorem State.logReads_hostRead (l : List ReadReq) : (s.logReads l).hostRead = s.hostRead := rfl
@[simp] theorem State.logReads_ret (l : List ReadReq) : (s.logReads l).ret = s.ret := rfl
@[simp] theorem State.logReads_reads (l : List ReadReq) : (s.logReads l).reads = s.reads ++ l := rfl
@[simp] theorem State.logReads_freeIdx (l : List ReadReq) : (s.logReads l).freeIdx = s.freeIdx := rfl

/-! ### `setRet` -/

@[simp] theorem State.setRet_k (v : Word) : (s.setRet v).k = s.k := rfl
@[simp] theorem State.setRet_bus (v : Word) : (s.setRet v).bus = s.bus := rfl
@[simp] theorem State.setRet_busy (v : Word) : (s.setRet v).busy = s.busy := rfl
@[simp] theorem State.setRet_done (v : Word) : (s.setRet v).done = s.done := rfl
@[simp] theorem State.setRet_size (v : Word) : (s.setRet v).size = s.size := rfl
@[simp] theorem State.setRet_data (v : Word) : (s.setRet v).data = s.data := rfl
@[simp] theorem State.setRet_seed (v : Word) : (s.setRet v).seed = s.seed := rfl
@[simp] theorem State.setRet_result (v : Word) : (s.setRet v).result = s.result := rfl
@[simp] theorem State.setRet_rX0 (v : Word) : (s.setRet v).rX0 = s.rX0 := rfl
@[simp] theorem State.setRet_rX1 (v : Word) : (s.setRet v).rX1 = s.rX1 := rfl
@[simp] theorem State.setRet_rS (v : Word) : (s.setRet v).rS = s.rS := rfl
@[simp] theorem State.setRet_rS0 (v : Word) : (s.setRet v).rS0 = s.rS0 := rfl
@[simp] theorem State.setRet_rS1 (v : Word) : (s.setRet v).rS1 = s.rS1 := rfl
@[simp] theorem State.setRet_rMA (v : Word) : (s.setRet v).rMA = s.rMA := rfl
@[simp] theorem State.setRet_rMB (v : Word) : (s.setRet v).rMB = s.rMB := rfl
@[simp] theorem State.setRet_rR (v : Word) : (s.setRet v).rR = s.rR := rfl
@[simp] theorem State.setRet_rP (v : Word) : (s.setRet v).rP = s.rP := rfl
@[simp] theorem State.setRet_rI (v : Word) : (s.setRet v).rI = s.rI := rfl
@[simp] theorem State.setRet_rN (v : Word) : (s.setRet v).rN = s.rN := rfl
@[simp] theorem State.setRet_rOPL (v : Word) : (s.setRet v).rOPL = s.rOPL := rfl
@[simp] theorem State.setRet_upc (v : Word) : (s.setRet v).upc = s.upc := rfl
@[simp] theorem State.setRet_mem (v : Word) : (s.setRet v).mem = s.mem := rfl
@[simp] theorem State.setRet_turns (v : Word) : (s.setRet v).turns = s.turns := rfl
@[simp] theorem State.setRet_hostRead (v : Word) : (s.setRet v).hostRead = s.hostRead := rfl
@[simp] theorem State.setRet_ret (v : Word) : (s.setRet v).ret = v := rfl
@[simp] theorem State.setRet_reads (v : Word) : (s.setRet v).reads = s.reads := rfl
@[simp] theorem State.setRet_freeIdx (v : Word) : (s.setRet v).freeIdx = s.freeIdx := rfl

/-! ### `latch` -/

@[simp] theorem State.latch_k (o : BitVec 1) : (s.latch o).k = s.k := rfl
@[simp] theorem State.latch_bus (o : BitVec 1) : (s.latch o).bus = s.bus := rfl
@[simp] theorem State.latch_busy (o : BitVec 1) : (s.latch o).busy = s.busy := rfl
@[simp] theorem State.latch_done (o : BitVec 1) : (s.latch o).done = s.done := rfl
@[simp] theorem State.latch_size (o : BitVec 1) : (s.latch o).size = s.size := rfl
@[simp] theorem State.latch_data (o : BitVec 1) : (s.latch o).data = s.data := rfl
@[simp] theorem State.latch_seed (o : BitVec 1) : (s.latch o).seed = s.seed := rfl
@[simp] theorem State.latch_result (o : BitVec 1) : (s.latch o).result = s.result := rfl
@[simp] theorem State.latch_rX0 (o : BitVec 1) : (s.latch o).rX0 = s.rX0 := rfl
@[simp] theorem State.latch_rX1 (o : BitVec 1) : (s.latch o).rX1 = s.rX1 := rfl
@[simp] theorem State.latch_rS (o : BitVec 1) : (s.latch o).rS = s.seed := rfl
@[simp] theorem State.latch_rS0 (o : BitVec 1) : (s.latch o).rS0 = s.rS0 := rfl
@[simp] theorem State.latch_rS1 (o : BitVec 1) : (s.latch o).rS1 = s.rS1 := rfl
@[simp] theorem State.latch_rMA (o : BitVec 1) : (s.latch o).rMA = s.rMA := rfl
@[simp] theorem State.latch_rMB (o : BitVec 1) : (s.latch o).rMB = s.rMB := rfl
@[simp] theorem State.latch_rR (o : BitVec 1) : (s.latch o).rR = s.rR := rfl
@[simp] theorem State.latch_rP (o : BitVec 1) : (s.latch o).rP = s.data := rfl
@[simp] theorem State.latch_rI (o : BitVec 1) : (s.latch o).rI = s.size := rfl
@[simp] theorem State.latch_rN (o : BitVec 1) : (s.latch o).rN = s.size := rfl
@[simp] theorem State.latch_rOPL (o : BitVec 1) : (s.latch o).rOPL = o := rfl
@[simp] theorem State.latch_upc (o : BitVec 1) : (s.latch o).upc = s.upc := rfl
@[simp] theorem State.latch_mem (o : BitVec 1) : (s.latch o).mem = s.mem := rfl
@[simp] theorem State.latch_turns (o : BitVec 1) : (s.latch o).turns = s.turns := rfl
@[simp] theorem State.latch_hostRead (o : BitVec 1) : (s.latch o).hostRead = s.hostRead := rfl
@[simp] theorem State.latch_ret (o : BitVec 1) : (s.latch o).ret = s.ret := rfl
@[simp] theorem State.latch_reads (o : BitVec 1) : (s.latch o).reads = [] := rfl
@[simp] theorem State.latch_freeIdx (o : BitVec 1) : (s.latch o).freeIdx = s.freeIdx := rfl

/-! ### `publish` -/

@[simp] theorem State.publish_k : (s.publish).k = s.k := rfl
@[simp] theorem State.publish_bus : (s.publish).bus = s.bus := rfl
@[simp] theorem State.publish_busy : (s.publish).busy = s.busy := rfl
@[simp] theorem State.publish_done : (s.publish).done = s.done := rfl
@[simp] theorem State.publish_size : (s.publish).size = s.size := rfl
@[simp] theorem State.publish_data : (s.publish).data = s.data := rfl
@[simp] theorem State.publish_seed : (s.publish).seed = s.seed := rfl
@[simp] theorem State.publish_result : (s.publish).result = s.rR := rfl
@[simp] theorem State.publish_rX0 : (s.publish).rX0 = s.rX0 := rfl
@[simp] theorem State.publish_rX1 : (s.publish).rX1 = s.rX1 := rfl
@[simp] theorem State.publish_rS : (s.publish).rS = s.rS := rfl
@[simp] theorem State.publish_rS0 : (s.publish).rS0 = s.rS0 := rfl
@[simp] theorem State.publish_rS1 : (s.publish).rS1 = s.rS1 := rfl
@[simp] theorem State.publish_rMA : (s.publish).rMA = s.rMA := rfl
@[simp] theorem State.publish_rMB : (s.publish).rMB = s.rMB := rfl
@[simp] theorem State.publish_rR : (s.publish).rR = s.rR := rfl
@[simp] theorem State.publish_rP : (s.publish).rP = s.rP := rfl
@[simp] theorem State.publish_rI : (s.publish).rI = s.rI := rfl
@[simp] theorem State.publish_rN : (s.publish).rN = s.rN := rfl
@[simp] theorem State.publish_rOPL : (s.publish).rOPL = s.rOPL := rfl
@[simp] theorem State.publish_upc : (s.publish).upc = s.upc := rfl
@[simp] theorem State.publish_mem : (s.publish).mem = s.mem := rfl
@[simp] theorem State.publish_turns : (s.publish).turns = s.turns := rfl
@[simp] theorem State.publish_hostRead : (s.publish).hostRead = s.hostRead := rfl
@[simp] theorem State.publish_ret : (s.publish).ret = s.ret := rfl
@[simp] theorem State.publish_reads : (s.publish).reads = s.reads := rfl
@[simp] theorem State.publish_freeIdx : (s.publish).freeIdx = s.freeIdx := rfl

/-! ### `takeTurn` -/

@[simp] theorem State.takeTurn_k : (s.takeTurn).k = s.k := rfl
@[simp] theorem State.takeTurn_bus : (s.takeTurn).bus = s.bus := rfl
@[simp] theorem State.takeTurn_busy : (s.takeTurn).busy = s.busy := rfl
@[simp] theorem State.takeTurn_done : (s.takeTurn).done = s.done := rfl
@[simp] theorem State.takeTurn_size : (s.takeTurn).size = s.size := rfl
@[simp] theorem State.takeTurn_data : (s.takeTurn).data = s.data := rfl
@[simp] theorem State.takeTurn_seed : (s.takeTurn).seed = s.seed := rfl
@[simp] theorem State.takeTurn_result : (s.takeTurn).result = s.result := rfl
@[simp] theorem State.takeTurn_rX0 : (s.takeTurn).rX0 = s.rX0 := rfl
@[simp] theorem State.takeTurn_rX1 : (s.takeTurn).rX1 = s.rX1 := rfl
@[simp] theorem State.takeTurn_rS : (s.takeTurn).rS = s.rS := rfl
@[simp] theorem State.takeTurn_rS0 : (s.takeTurn).rS0 = s.rS0 := rfl
@[simp] theorem State.takeTurn_rS1 : (s.takeTurn).rS1 = s.rS1 := rfl
@[simp] theorem State.takeTurn_rMA : (s.takeTurn).rMA = s.rMA := rfl
@[simp] theorem State.takeTurn_rMB : (s.takeTurn).rMB = s.rMB := rfl
@[simp] theorem State.takeTurn_rR : (s.takeTurn).rR = s.rR := rfl
@[simp] theorem State.takeTurn_rP : (s.takeTurn).rP = s.rP := rfl
@[simp] theorem State.takeTurn_rI : (s.takeTurn).rI = s.rI := rfl
@[simp] theorem State.takeTurn_rN : (s.takeTurn).rN = s.rN := rfl
@[simp] theorem State.takeTurn_rOPL : (s.takeTurn).rOPL = s.rOPL := rfl
@[simp] theorem State.takeTurn_upc : (s.takeTurn).upc = s.upc := rfl
@[simp] theorem State.takeTurn_mem : (s.takeTurn).mem = s.mem := rfl
@[simp] theorem State.takeTurn_turns : (s.takeTurn).turns = s.turns.tail := rfl
@[simp] theorem State.takeTurn_hostRead : (s.takeTurn).hostRead = s.hostRead := rfl
@[simp] theorem State.takeTurn_ret : (s.takeTurn).ret = s.ret := rfl
@[simp] theorem State.takeTurn_reads : (s.takeTurn).reads = s.reads := rfl
@[simp] theorem State.takeTurn_freeIdx : (s.takeTurn).freeIdx = s.freeIdx := rfl

/-! ### `setHostRead` -/

@[simp] theorem State.setHostRead_k (v : Word) : (s.setHostRead v).k = s.k := rfl
@[simp] theorem State.setHostRead_bus (v : Word) : (s.setHostRead v).bus = s.bus := rfl
@[simp] theorem State.setHostRead_busy (v : Word) : (s.setHostRead v).busy = s.busy := rfl
@[simp] theorem State.setHostRead_done (v : Word) : (s.setHostRead v).done = s.done := rfl
@[simp] theorem State.setHostRead_size (v : Word) : (s.setHostRead v).size = s.size := rfl
@[simp] theorem State.setHostRead_data (v : Word) : (s.setHostRead v).data = s.data := rfl
@[simp] theorem State.setHostRead_seed (v : Word) : (s.setHostRead v).seed = s.seed := rfl
@[simp] theorem State.setHostRead_result (v : Word) : (s.setHostRead v).result = s.result := rfl
@[simp] theorem State.setHostRead_rX0 (v : Word) : (s.setHostRead v).rX0 = s.rX0 := rfl
@[simp] theorem State.setHostRead_rX1 (v : Word) : (s.setHostRead v).rX1 = s.rX1 := rfl
@[simp] theorem State.setHostRead_rS (v : Word) : (s.setHostRead v).rS = s.rS := rfl
@[simp] theorem State.setHostRead_rS0 (v : Word) : (s.setHostRead v).rS0 = s.rS0 := rfl
@[simp] theorem State.setHostRead_rS1 (v : Word) : (s.setHostRead v).rS1 = s.rS1 := rfl
@[simp] theorem State.setHostRead_rMA (v : Word) : (s.setHostRead v).rMA = s.rMA := rfl
@[simp] theorem State.setHostRead_rMB (v : Word) : (s.setHostRead v).rMB = s.rMB := rfl
@[simp] theorem State.setHostRead_rR (v : Word) : (s.setHostRead v).rR = s.rR := rfl
@[simp] theorem State.setHostRead_rP (v : Word) : (s.setHostRead v).rP = s.rP := rfl
@[simp] theorem State.setHostRead_rI (v : Word) : (s.setHostRead v).rI = s.rI := rfl
@[simp] theorem State.setHostRead_rN (v : Word) : (s.setHostRead v).rN = s.rN := rfl
@[simp] theorem State.setHostRead_rOPL (v : Word) : (s.setHostRead v).rOPL = s.rOPL := rfl
@[simp] theorem State.setHostRead_upc (v : Word) : (s.setHostRead v).upc = s.upc := rfl
@[simp] theorem State.setHostRead_mem (v : Word) : (s.setHostRead v).mem = s.mem := rfl
@[simp] theorem State.setHostRead_turns (v : Word) : (s.setHostRead v).turns = s.turns := rfl
@[simp] theorem State.setHostRead_hostRead (v : Word) : (s.setHostRead v).hostRead = v := rfl
@[simp] theorem State.setHostRead_ret (v : Word) : (s.setHostRead v).ret = s.ret := rfl
@[simp] theorem State.setHostRead_reads (v : Word) : (s.setHostRead v).reads = s.reads := rfl
@[simp] theorem State.setHostRead_freeIdx (v : Word) : (s.setHostRead v).freeIdx = s.freeIdx := rfl

/-! ### `drawn` -/

@[simp] theorem State.drawn_k (j : Nat) : (s.drawn j).k = s.k := rfl
@[simp] theorem State.drawn_bus (j : Nat) : (s.drawn j).bus = s.bus := rfl
@[simp] theorem State.drawn_busy (j : Nat) : (s.drawn j).busy = s.busy := rfl
@[simp] theorem State.drawn_done (j : Nat) : (s.drawn j).done = s.done := rfl
@[simp] theorem State.drawn_size (j : Nat) : (s.drawn j).size = s.size := rfl
@[simp] theorem State.drawn_data (j : Nat) : (s.drawn j).data = s.data := rfl
@[simp] theorem State.drawn_seed (j : Nat) : (s.drawn j).seed = s.seed := rfl
@[simp] theorem State.drawn_result (j : Nat) : (s.drawn j).result = s.result := rfl
@[simp] theorem State.drawn_rX0 (j : Nat) : (s.drawn j).rX0 = s.rX0 := rfl
@[simp] theorem State.drawn_rX1 (j : Nat) : (s.drawn j).rX1 = s.rX1 := rfl
@[simp] theorem State.drawn_rS (j : Nat) : (s.drawn j).rS = s.rS := rfl
@[simp] theorem State.drawn_rS0 (j : Nat) : (s.drawn j).rS0 = s.rS0 := rfl
@[simp] theorem State.drawn_rS1 (j : Nat) : (s.drawn j).rS1 = s.rS1 := rfl
@[simp] theorem State.drawn_rMA (j : Nat) : (s.drawn j).rMA = s.rMA := rfl
@[simp] theorem State.drawn_rMB (j : Nat) : (s.drawn j).rMB = s.rMB := rfl
@[simp] theorem State.drawn_rR (j : Nat) : (s.drawn j).rR = s.rR := rfl
@[simp] theorem State.drawn_rP (j : Nat) : (s.drawn j).rP = s.rP := rfl
@[simp] theorem State.drawn_rI (j : Nat) : (s.drawn j).rI = s.rI := rfl
@[simp] theorem State.drawn_rN (j : Nat) : (s.drawn j).rN = s.rN := rfl
@[simp] theorem State.drawn_rOPL (j : Nat) : (s.drawn j).rOPL = s.rOPL := rfl
@[simp] theorem State.drawn_upc (j : Nat) : (s.drawn j).upc = s.upc := rfl
@[simp] theorem State.drawn_mem (j : Nat) : (s.drawn j).mem = s.mem := rfl
@[simp] theorem State.drawn_turns (j : Nat) : (s.drawn j).turns = s.turns := rfl
@[simp] theorem State.drawn_hostRead (j : Nat) : (s.drawn j).hostRead = s.hostRead := rfl
@[simp] theorem State.drawn_ret (j : Nat) : (s.drawn j).ret = s.ret := rfl
@[simp] theorem State.drawn_reads (j : Nat) : (s.drawn j).reads = s.reads := rfl
@[simp] theorem State.drawn_freeIdx (j : Nat) : (s.drawn j).freeIdx = s.freeIdx + j := rfl

/-! ### `setSize` -/

@[simp] theorem State.setSize_k (w : Word) : (s.setSize w).k = s.k := rfl
@[simp] theorem State.setSize_bus (w : Word) : (s.setSize w).bus = s.bus := rfl
@[simp] theorem State.setSize_busy (w : Word) : (s.setSize w).busy = s.busy := rfl
@[simp] theorem State.setSize_done (w : Word) : (s.setSize w).done = s.done := rfl
@[simp] theorem State.setSize_size (w : Word) : (s.setSize w).size = w := rfl
@[simp] theorem State.setSize_data (w : Word) : (s.setSize w).data = s.data := rfl
@[simp] theorem State.setSize_seed (w : Word) : (s.setSize w).seed = s.seed := rfl
@[simp] theorem State.setSize_result (w : Word) : (s.setSize w).result = s.result := rfl
@[simp] theorem State.setSize_rX0 (w : Word) : (s.setSize w).rX0 = s.rX0 := rfl
@[simp] theorem State.setSize_rX1 (w : Word) : (s.setSize w).rX1 = s.rX1 := rfl
@[simp] theorem State.setSize_rS (w : Word) : (s.setSize w).rS = s.rS := rfl
@[simp] theorem State.setSize_rS0 (w : Word) : (s.setSize w).rS0 = s.rS0 := rfl
@[simp] theorem State.setSize_rS1 (w : Word) : (s.setSize w).rS1 = s.rS1 := rfl
@[simp] theorem State.setSize_rMA (w : Word) : (s.setSize w).rMA = s.rMA := rfl
@[simp] theorem State.setSize_rMB (w : Word) : (s.setSize w).rMB = s.rMB := rfl
@[simp] theorem State.setSize_rR (w : Word) : (s.setSize w).rR = s.rR := rfl
@[simp] theorem State.setSize_rP (w : Word) : (s.setSize w).rP = s.rP := rfl
@[simp] theorem State.setSize_rI (w : Word) : (s.setSize w).rI = s.rI := rfl
@[simp] theorem State.setSize_rN (w : Word) : (s.setSize w).rN = s.rN := rfl
@[simp] theorem State.setSize_rOPL (w : Word) : (s.setSize w).rOPL = s.rOPL := rfl
@[simp] theorem State.setSize_upc (w : Word) : (s.setSize w).upc = s.upc := rfl
@[simp] theorem State.setSize_mem (w : Word) : (s.setSize w).mem = s.mem := rfl
@[simp] theorem State.setSize_turns (w : Word) : (s.setSize w).turns = s.turns := rfl
@[simp] theorem State.setSize_hostRead (w : Word) : (s.setSize w).hostRead = s.hostRead := rfl
@[simp] theorem State.setSize_ret (w : Word) : (s.setSize w).ret = s.ret := rfl
@[simp] theorem State.setSize_reads (w : Word) : (s.setSize w).reads = s.reads := rfl
@[simp] theorem State.setSize_freeIdx (w : Word) : (s.setSize w).freeIdx = s.freeIdx := rfl

/-! ### `setData` -/

@[simp] theorem State.setData_k (w : Word) : (s.setData w).k = s.k := rfl
@[simp] theorem State.setData_bus (w : Word) : (s.setData w).bus = s.bus := rfl
@[simp] theorem State.setData_busy (w : Word) : (s.setData w).busy = s.busy := rfl
@[simp] theorem State.setData_done (w : Word) : (s.setData w).done = s.done := rfl
@[simp] theorem State.setData_size (w : Word) : (s.setData w).size = s.size := rfl
@[simp] theorem State.setData_data (w : Word) : (s.setData w).data = w := rfl
@[simp] theorem State.setData_seed (w : Word) : (s.setData w).seed = s.seed := rfl
@[simp] theorem State.setData_result (w : Word) : (s.setData w).result = s.result := rfl
@[simp] theorem State.setData_rX0 (w : Word) : (s.setData w).rX0 = s.rX0 := rfl
@[simp] theorem State.setData_rX1 (w : Word) : (s.setData w).rX1 = s.rX1 := rfl
@[simp] theorem State.setData_rS (w : Word) : (s.setData w).rS = s.rS := rfl
@[simp] theorem State.setData_rS0 (w : Word) : (s.setData w).rS0 = s.rS0 := rfl
@[simp] theorem State.setData_rS1 (w : Word) : (s.setData w).rS1 = s.rS1 := rfl
@[simp] theorem State.setData_rMA (w : Word) : (s.setData w).rMA = s.rMA := rfl
@[simp] theorem State.setData_rMB (w : Word) : (s.setData w).rMB = s.rMB := rfl
@[simp] theorem State.setData_rR (w : Word) : (s.setData w).rR = s.rR := rfl
@[simp] theorem State.setData_rP (w : Word) : (s.setData w).rP = s.rP := rfl
@[simp] theorem State.setData_rI (w : Word) : (s.setData w).rI = s.rI := rfl
@[simp] theorem State.setData_rN (w : Word) : (s.setData w).rN = s.rN := rfl
@[simp] theorem State.setData_rOPL (w : Word) : (s.setData w).rOPL = s.rOPL := rfl
@[simp] theorem State.setData_upc (w : Word) : (s.setData w).upc = s.upc := rfl
@[simp] theorem State.setData_mem (w : Word) : (s.setData w).mem = s.mem := rfl
@[simp] theorem State.setData_turns (w : Word) : (s.setData w).turns = s.turns := rfl
@[simp] theorem State.setData_hostRead (w : Word) : (s.setData w).hostRead = s.hostRead := rfl
@[simp] theorem State.setData_ret (w : Word) : (s.setData w).ret = s.ret := rfl
@[simp] theorem State.setData_reads (w : Word) : (s.setData w).reads = s.reads := rfl
@[simp] theorem State.setData_freeIdx (w : Word) : (s.setData w).freeIdx = s.freeIdx := rfl

/-! ### `setSeed` -/

@[simp] theorem State.setSeed_k (w : Word) : (s.setSeed w).k = s.k := rfl
@[simp] theorem State.setSeed_bus (w : Word) : (s.setSeed w).bus = s.bus := rfl
@[simp] theorem State.setSeed_busy (w : Word) : (s.setSeed w).busy = s.busy := rfl
@[simp] theorem State.setSeed_done (w : Word) : (s.setSeed w).done = s.done := rfl
@[simp] theorem State.setSeed_size (w : Word) : (s.setSeed w).size = s.size := rfl
@[simp] theorem State.setSeed_data (w : Word) : (s.setSeed w).data = s.data := rfl
@[simp] theorem State.setSeed_seed (w : Word) : (s.setSeed w).seed = w := rfl
@[simp] theorem State.setSeed_result (w : Word) : (s.setSeed w).result = s.result := rfl
@[simp] theorem State.setSeed_rX0 (w : Word) : (s.setSeed w).rX0 = s.rX0 := rfl
@[simp] theorem State.setSeed_rX1 (w : Word) : (s.setSeed w).rX1 = s.rX1 := rfl
@[simp] theorem State.setSeed_rS (w : Word) : (s.setSeed w).rS = s.rS := rfl
@[simp] theorem State.setSeed_rS0 (w : Word) : (s.setSeed w).rS0 = s.rS0 := rfl
@[simp] theorem State.setSeed_rS1 (w : Word) : (s.setSeed w).rS1 = s.rS1 := rfl
@[simp] theorem State.setSeed_rMA (w : Word) : (s.setSeed w).rMA = s.rMA := rfl
@[simp] theorem State.setSeed_rMB (w : Word) : (s.setSeed w).rMB = s.rMB := rfl
@[simp] theorem State.setSeed_rR (w : Word) : (s.setSeed w).rR = s.rR := rfl
@[simp] theorem State.setSeed_rP (w : Word) : (s.setSeed w).rP = s.rP := rfl
@[simp] theorem State.setSeed_rI (w : Word) : (s.setSeed w).rI = s.rI := rfl
@[simp] theorem State.setSeed_rN (w : Word) : (s.setSeed w).rN = s.rN := rfl
@[simp] theorem State.setSeed_rOPL (w : Word) : (s.setSeed w).rOPL = s.rOPL := rfl
@[simp] theorem State.setSeed_upc (w : Word) : (s.setSeed w).upc = s.upc := rfl
@[simp] theorem State.setSeed_mem (w : Word) : (s.setSeed w).mem = s.mem := rfl
@[simp] theorem State.setSeed_turns (w : Word) : (s.setSeed w).turns = s.turns := rfl
@[simp] theorem State.setSeed_hostRead (w : Word) : (s.setSeed w).hostRead = s.hostRead := rfl
@[simp] theorem State.setSeed_ret (w : Word) : (s.setSeed w).ret = s.ret := rfl
@[simp] theorem State.setSeed_reads (w : Word) : (s.setSeed w).reads = s.reads := rfl
@[simp] theorem State.setSeed_freeIdx (w : Word) : (s.setSeed w).freeIdx = s.freeIdx := rfl

/-! ### `setMem` -/

@[simp] theorem State.setMem_k (m : Memory) : (s.setMem m).k = s.k := rfl
@[simp] theorem State.setMem_bus (m : Memory) : (s.setMem m).bus = s.bus := rfl
@[simp] theorem State.setMem_busy (m : Memory) : (s.setMem m).busy = s.busy := rfl
@[simp] theorem State.setMem_done (m : Memory) : (s.setMem m).done = s.done := rfl
@[simp] theorem State.setMem_size (m : Memory) : (s.setMem m).size = s.size := rfl
@[simp] theorem State.setMem_data (m : Memory) : (s.setMem m).data = s.data := rfl
@[simp] theorem State.setMem_seed (m : Memory) : (s.setMem m).seed = s.seed := rfl
@[simp] theorem State.setMem_result (m : Memory) : (s.setMem m).result = s.result := rfl
@[simp] theorem State.setMem_rX0 (m : Memory) : (s.setMem m).rX0 = s.rX0 := rfl
@[simp] theorem State.setMem_rX1 (m : Memory) : (s.setMem m).rX1 = s.rX1 := rfl
@[simp] theorem State.setMem_rS (m : Memory) : (s.setMem m).rS = s.rS := rfl
@[simp] theorem State.setMem_rS0 (m : Memory) : (s.setMem m).rS0 = s.rS0 := rfl
@[simp] theorem State.setMem_rS1 (m : Memory) : (s.setMem m).rS1 = s.rS1 := rfl
@[simp] theorem State.setMem_rMA (m : Memory) : (s.setMem m).rMA = s.rMA := rfl
@[simp] theorem State.setMem_rMB (m : Memory) : (s.setMem m).rMB = s.rMB := rfl
@[simp] theorem State.setMem_rR (m : Memory) : (s.setMem m).rR = s.rR := rfl
@[simp] theorem State.setMem_rP (m : Memory) : (s.setMem m).rP = s.rP := rfl
@[simp] theorem State.setMem_rI (m : Memory) : (s.setMem m).rI = s.rI := rfl
@[simp] theorem State.setMem_rN (m : Memory) : (s.setMem m).rN = s.rN := rfl
@[simp] theorem State.setMem_rOPL (m : Memory) : (s.setMem m).rOPL = s.rOPL := rfl
@[simp] theorem State.setMem_upc (m : Memory) : (s.setMem m).upc = s.upc := rfl
@[simp] theorem State.setMem_mem (m : Memory) : (s.setMem m).mem = m := rfl
@[simp] theorem State.setMem_turns (m : Memory) : (s.setMem m).turns = s.turns := rfl
@[simp] theorem State.setMem_hostRead (m : Memory) : (s.setMem m).hostRead = s.hostRead := rfl
@[simp] theorem State.setMem_ret (m : Memory) : (s.setMem m).ret = s.ret := rfl
@[simp] theorem State.setMem_reads (m : Memory) : (s.setMem m).reads = s.reads := rfl
@[simp] theorem State.setMem_freeIdx (m : Memory) : (s.setMem m).freeIdx = s.freeIdx := rfl

/-! ### `flagsLaunch` -/

@[simp] theorem State.flagsLaunch_k : (s.flagsLaunch).k = s.k := rfl
@[simp] theorem State.flagsLaunch_bus : (s.flagsLaunch).bus = s.bus := rfl
@[simp] theorem State.flagsLaunch_busy : (s.flagsLaunch).busy = true := rfl
@[simp] theorem State.flagsLaunch_done : (s.flagsLaunch).done = false := rfl
@[simp] theorem State.flagsLaunch_size : (s.flagsLaunch).size = s.size := rfl
@[simp] theorem State.flagsLaunch_data : (s.flagsLaunch).data = s.data := rfl
@[simp] theorem State.flagsLaunch_seed : (s.flagsLaunch).seed = s.seed := rfl
@[simp] theorem State.flagsLaunch_result : (s.flagsLaunch).result = s.result := rfl
@[simp] theorem State.flagsLaunch_rX0 : (s.flagsLaunch).rX0 = s.rX0 := rfl
@[simp] theorem State.flagsLaunch_rX1 : (s.flagsLaunch).rX1 = s.rX1 := rfl
@[simp] theorem State.flagsLaunch_rS : (s.flagsLaunch).rS = s.rS := rfl
@[simp] theorem State.flagsLaunch_rS0 : (s.flagsLaunch).rS0 = s.rS0 := rfl
@[simp] theorem State.flagsLaunch_rS1 : (s.flagsLaunch).rS1 = s.rS1 := rfl
@[simp] theorem State.flagsLaunch_rMA : (s.flagsLaunch).rMA = s.rMA := rfl
@[simp] theorem State.flagsLaunch_rMB : (s.flagsLaunch).rMB = s.rMB := rfl
@[simp] theorem State.flagsLaunch_rR : (s.flagsLaunch).rR = s.rR := rfl
@[simp] theorem State.flagsLaunch_rP : (s.flagsLaunch).rP = s.rP := rfl
@[simp] theorem State.flagsLaunch_rI : (s.flagsLaunch).rI = s.rI := rfl
@[simp] theorem State.flagsLaunch_rN : (s.flagsLaunch).rN = s.rN := rfl
@[simp] theorem State.flagsLaunch_rOPL : (s.flagsLaunch).rOPL = s.rOPL := rfl
@[simp] theorem State.flagsLaunch_upc : (s.flagsLaunch).upc = s.upc := rfl
@[simp] theorem State.flagsLaunch_mem : (s.flagsLaunch).mem = s.mem := rfl
@[simp] theorem State.flagsLaunch_turns : (s.flagsLaunch).turns = s.turns := rfl
@[simp] theorem State.flagsLaunch_hostRead : (s.flagsLaunch).hostRead = s.hostRead := rfl
@[simp] theorem State.flagsLaunch_ret : (s.flagsLaunch).ret = s.ret := rfl
@[simp] theorem State.flagsLaunch_reads : (s.flagsLaunch).reads = s.reads := rfl
@[simp] theorem State.flagsLaunch_freeIdx : (s.flagsLaunch).freeIdx = s.freeIdx := rfl

/-! ### `flagsDone` -/

@[simp] theorem State.flagsDone_k : (s.flagsDone).k = s.k := rfl
@[simp] theorem State.flagsDone_bus : (s.flagsDone).bus = s.bus := rfl
@[simp] theorem State.flagsDone_busy : (s.flagsDone).busy = false := rfl
@[simp] theorem State.flagsDone_done : (s.flagsDone).done = true := rfl
@[simp] theorem State.flagsDone_size : (s.flagsDone).size = s.size := rfl
@[simp] theorem State.flagsDone_data : (s.flagsDone).data = s.data := rfl
@[simp] theorem State.flagsDone_seed : (s.flagsDone).seed = s.seed := rfl
@[simp] theorem State.flagsDone_result : (s.flagsDone).result = s.result := rfl
@[simp] theorem State.flagsDone_rX0 : (s.flagsDone).rX0 = s.rX0 := rfl
@[simp] theorem State.flagsDone_rX1 : (s.flagsDone).rX1 = s.rX1 := rfl
@[simp] theorem State.flagsDone_rS : (s.flagsDone).rS = s.rS := rfl
@[simp] theorem State.flagsDone_rS0 : (s.flagsDone).rS0 = s.rS0 := rfl
@[simp] theorem State.flagsDone_rS1 : (s.flagsDone).rS1 = s.rS1 := rfl
@[simp] theorem State.flagsDone_rMA : (s.flagsDone).rMA = s.rMA := rfl
@[simp] theorem State.flagsDone_rMB : (s.flagsDone).rMB = s.rMB := rfl
@[simp] theorem State.flagsDone_rR : (s.flagsDone).rR = s.rR := rfl
@[simp] theorem State.flagsDone_rP : (s.flagsDone).rP = s.rP := rfl
@[simp] theorem State.flagsDone_rI : (s.flagsDone).rI = s.rI := rfl
@[simp] theorem State.flagsDone_rN : (s.flagsDone).rN = s.rN := rfl
@[simp] theorem State.flagsDone_rOPL : (s.flagsDone).rOPL = s.rOPL := rfl
@[simp] theorem State.flagsDone_upc : (s.flagsDone).upc = s.upc := rfl
@[simp] theorem State.flagsDone_mem : (s.flagsDone).mem = s.mem := rfl
@[simp] theorem State.flagsDone_turns : (s.flagsDone).turns = s.turns := rfl
@[simp] theorem State.flagsDone_hostRead : (s.flagsDone).hostRead = s.hostRead := rfl
@[simp] theorem State.flagsDone_ret : (s.flagsDone).ret = s.ret := rfl
@[simp] theorem State.flagsDone_reads : (s.flagsDone).reads = s.reads := rfl
@[simp] theorem State.flagsDone_freeIdx : (s.flagsDone).freeIdx = s.freeIdx := rfl

/-! ### `blockReset` -/

@[simp] theorem State.blockReset_k : (s.blockReset).k = s.k := rfl
@[simp] theorem State.blockReset_bus : (s.blockReset).bus = s.bus := rfl
@[simp] theorem State.blockReset_busy : (s.blockReset).busy = false := rfl
@[simp] theorem State.blockReset_done : (s.blockReset).done = false := rfl
@[simp] theorem State.blockReset_size : (s.blockReset).size = 0 := rfl
@[simp] theorem State.blockReset_data : (s.blockReset).data = 0 := rfl
@[simp] theorem State.blockReset_seed : (s.blockReset).seed = 0 := rfl
@[simp] theorem State.blockReset_result : (s.blockReset).result = s.freeNow 0 := rfl
@[simp] theorem State.blockReset_rX0 : (s.blockReset).rX0 = s.freeNow 1 := rfl
@[simp] theorem State.blockReset_rX1 : (s.blockReset).rX1 = s.freeNow 2 := rfl
@[simp] theorem State.blockReset_rS : (s.blockReset).rS = s.freeNow 3 := rfl
@[simp] theorem State.blockReset_rS0 : (s.blockReset).rS0 = s.freeNow 4 := rfl
@[simp] theorem State.blockReset_rS1 : (s.blockReset).rS1 = s.freeNow 5 := rfl
@[simp] theorem State.blockReset_rMA : (s.blockReset).rMA = s.freeNow 6 := rfl
@[simp] theorem State.blockReset_rMB : (s.blockReset).rMB = s.freeNow 7 := rfl
@[simp] theorem State.blockReset_rR : (s.blockReset).rR = s.freeNow 8 := rfl
@[simp] theorem State.blockReset_rP : (s.blockReset).rP = s.freeNow 9 := rfl
@[simp] theorem State.blockReset_rI : (s.blockReset).rI = s.freeNow 10 := rfl
@[simp] theorem State.blockReset_rN : (s.blockReset).rN = s.freeNow 11 := rfl
@[simp] theorem State.blockReset_rOPL : (s.blockReset).rOPL = (s.freeNow 12).extractLsb' 0 1 := rfl
@[simp] theorem State.blockReset_upc : (s.blockReset).upc = .idle := rfl
@[simp] theorem State.blockReset_mem : (s.blockReset).mem = s.mem := rfl
@[simp] theorem State.blockReset_turns : (s.blockReset).turns = s.turns := rfl
@[simp] theorem State.blockReset_hostRead : (s.blockReset).hostRead = s.hostRead := rfl
@[simp] theorem State.blockReset_ret : (s.blockReset).ret = s.ret := rfl
@[simp] theorem State.blockReset_reads : (s.blockReset).reads = s.reads := rfl
@[simp] theorem State.blockReset_freeIdx : (s.blockReset).freeIdx = s.freeIdx + 13 := rfl

/-! ### Values read off an updated state -/

@[simp] theorem State.mixOut_mum (a b : Word) : (s.mum a b).mixOut = mixVal a b := rfl

end Sys2Proof.Machine
end

