-- ==== Sys2Proof/Laws/Values.lean ====
section
/-! SUPPORT. The values the operations compute: the product, little-endian assembly, the lanes. -/

namespace Sys2Proof.Machine

/-! ### The product (40_mix.md R120) -/

theorem mul128_fst_toNat (a b : Word) : (mul128 a b).1.toNat = a.toNat * b.toNat % 2 ^ 64 := by
  simp [mul128]

theorem mul128_snd_toNat (a b : Word) : (mul128 a b).2.toNat = a.toNat * b.toNat / 2 ^ 64 := by
  simp only [mul128, BitVec.toNat_ofNat]
  apply Nat.mod_eq_of_lt
  rw [Nat.div_lt_iff_lt_mul (by norm_num)]
  exact Nat.mul_lt_mul'' a.isLt b.isLt

theorem mul128_comm (a b : Word) : mul128 a b = mul128 b a := by
  simp only [mul128, Nat.mul_comm]

theorem mul128_eq_of_lt {a b : Word} (h : a.toNat * b.toNat < 2 ^ 64) : mul128 a b = (a * b, 0) := by
  have h2 : a.toNat * b.toNat / 2 ^ 64 = 0 := Nat.div_eq_of_lt h
  simp only [mul128, h2]
  congr 1

/-! ### Little-endian assembly (00_scope.md section 6) -/

@[simp] theorem le_nil : le [] = 0 := rfl

theorem le_cons (b : Byte) (bs : List Byte) : le (b :: bs) = b.zeroExtend 64 ||| (le bs <<< 8) := rfl

/-- Bytes assembled together are the first ones, and the others shifted above them. -/
theorem le_append (xs ys : List Byte) : le (xs ++ ys) = le xs ||| (le ys <<< (8 * xs.length)) := by
  induction xs with
  | nil => simp
  | cons x xs ih =>
    rw [List.cons_append, le_cons, le_cons, ih, BitVec.shiftLeft_or_distrib, BitVec.or_assoc, ← BitVec.shiftLeft_add]
    simp [Nat.mul_add]

/-- A byte goes below the others: no bits meet, so the OR is a sum, and no bit is shifted out of 64. -/
theorem le_cons_toNat (b : Byte) (bs : List Byte) (h : (le bs).toNat < 2 ^ 56) :
    (le (b :: bs)).toNat = b.toNat + 256 * (le bs).toNat := by
  have hb := b.isLt
  rw [le_cons, BitVec.toNat_or, BitVec.toNat_shiftLeft, Nat.shiftLeft_eq]
  have h1 : (BitVec.zeroExtend 64 b).toNat = b.toNat := by
    simp; omega
  have h2 : (le bs).toNat * 2 ^ 8 % 2 ^ 64 = 2 ^ 8 * (le bs).toNat := by
    rw [Nat.mul_comm]; exact Nat.mod_eq_of_lt (by omega)
  rw [h1, h2, Nat.or_comm, ← Nat.two_pow_add_eq_or_of_lt hb, Nat.add_comm]

/-- `m` bytes assemble to less than `256^m`. -/
theorem le_lt {bs : List Byte} (h : bs.length ≤ 8) : (le bs).toNat < 256 ^ bs.length := by
  induction bs with
  | nil => simp
  | cons b bs ih =>
    simp only [List.length_cons] at h ⊢
    have hl := ih (by omega)
    have hp : 256 ^ bs.length ≤ 2 ^ 56 := by
      calc 256 ^ bs.length ≤ 256 ^ 7 := Nat.pow_le_pow_right (by norm_num) (by omega)
        _ = 2 ^ 56 := by norm_num
    rw [le_cons_toNat b bs (by omega), pow_succ]
    have := b.isLt
    omega

/-! ### Lanes (42_short_dispatch.md R141) -/

@[simp] theorem lane_nil (m : Memory) (p : Word) : lane m p [] = some 0 := rfl

/-- A lane is what its terms say, if each of them can be read. -/
theorem lane_cons {m : Memory} {p : Word} {q : Piece} {rest : List Piece} {v r : Word}
    (hv : rd m q.width (p + BitVec.ofNat 64 q.offset) = some v) (hr : lane m p rest = some r) :
    lane m p (q :: rest) = some ((v <<< q.shift) ||| r) := by
  simp [lane, hv, hr]

/-- A lane that has a value has had all its terms read. -/
theorem lane_cons_inv {m : Memory} {p : Word} {q : Piece} {rest : List Piece} {x : Word}
    (h : lane m p (q :: rest) = some x) :
    ∃ v r, rd m q.width (p + BitVec.ofNat 64 q.offset) = some v ∧ lane m p rest = some r ∧ x = (v <<< q.shift) ||| r := by
  simp only [lane] at h
  split at h
  · rename_i v r hv hr
    exact ⟨v, r, hv, hr, (Option.some.inj h).symm⟩
  · simp at h

/-- The terms of a run of single bytes: byte `o + j` goes to byte position `i + j`. -/
def bytePieces (o i : Nat) : Nat → List Piece
  | 0 => []
  | n + 1 => ⟨.w1, o, 8 * i⟩ :: bytePieces (o + 1) (i + 1) n

/-- A run of single bytes assembles little-endian. -/
theorem lane_bytePieces {m : Memory} {base : Word} {buf : List Byte} (h : HoldsAt m base buf) (o i n : Nat)
    (hn : o + n ≤ buf.length) :
    lane m base (bytePieces o i n) = some (le ((buf.drop o).take n) <<< (8 * i)) := by
  induction n generalizing o i with
  | zero => simp [bytePieces]
  | succ n ih =>
    have h1 := rd_holdsAt h (o := o) (w := .w1) (by simp [ReadWidth.bytes]; omega)
    have h2 := ih (o + 1) (i + 1) (by omega)
    rw [bytePieces, lane_cons h1 h2]
    congr 1
    have ho : o < buf.length := by omega
    rw [List.drop_eq_getElem_cons ho]
    simp only [ReadWidth.bytes, List.take_succ_cons, List.take_zero, le_cons, le_nil]
    simp [BitVec.shiftLeft_or_distrib, ← BitVec.shiftLeft_add, Nat.mul_add, Nat.add_comm]

end Sys2Proof.Machine
end

