-- ==== Sys2Proof/Laws/Ops.lean ====
section
/-! SUPPORT. For each shared operation and each meaning that can stop, one lemma that says all it can do: what the next
state is if it answers one. -/

namespace Sys2Proof.Machine

variable {s t : State}

/-! ### Readers and layouts -/

theorem reader_next {w : ReadWidth} {a : Word} (h : reader w a s = .next t) :
    ∃ v, rd s.mem w a = some v ∧ t = (s.logReads [⟨w, a⟩]).setRet v := by
  simp only [reader] at h
  split at h
  · rename_i v hv
    exact ⟨v, hv, (Host.Outcome.next.inj h).symm⟩
  · simp at h

theorem reader_of_rd {w : ReadWidth} {a v : Word} (h : rd s.mem w a = some v) :
    reader w a s = .next ((s.logReads [⟨w, a⟩]).setRet v) := by
  simp [reader, h]

theorem packWith_next {l0 l1 : List Piece} (h : packWith l0 l1 s = .next t) :
    ∃ x0 x1, lane s.mem s.rP l0 = some x0 ∧ lane s.mem s.rP l1 = some x1 ∧
      t = ((s.setLanes x0 x1).logReads (laneReads s.rP (l0 ++ l1))).goto .fin := by
  simp only [packWith] at h
  split at h
  · rename_i x0 x1 h0 h1
    exact ⟨x0, x1, h0, h1, (Host.Outcome.next.inj h).symm⟩
  · simp at h

theorem packWith_of_lanes {l0 l1 : List Piece} {x0 x1 : Word} (h0 : lane s.mem s.rP l0 = some x0)
    (h1 : lane s.mem s.rP l1 = some x1) :
    packWith l0 l1 s = .next (((s.setLanes x0 x1).logReads (laneReads s.rP (l0 ++ l1))).goto .fin) := by
  simp [packWith, h0, h1]

/-! ### The bulk folder -/

/-- The state after a B32 whose chunk is `v0`, `v1`, `v2`, `v3`. -/
def afterChunk32 (s : State) (v0 v1 v2 v3 : Word) : State :=
  let s1 := s.mum (v0 ^^^ s.k.k2) (v1 ^^^ s.rS0)
  let s2 := s1.mum (v2 ^^^ s.k.k3) (v3 ^^^ s.rS1)
  let s3 := (s2.setBulk s1.mixOut s2.mixOut).advance 32
  (s3.logReads [⟨.w8, s.cursor 0⟩, ⟨.w8, s.cursor 8⟩, ⟨.w8, s.cursor 16⟩, ⟨.w8, s.cursor 24⟩]).goto (afterB32 s3.rI)

theorem execB32_next (h : execB32 s = .next t) :
    ∃ v0 v1 v2 v3, rd s.mem .w8 (s.cursor 0) = some v0 ∧ rd s.mem .w8 (s.cursor 8) = some v1 ∧
      rd s.mem .w8 (s.cursor 16) = some v2 ∧ rd s.mem .w8 (s.cursor 24) = some v3 ∧ t = afterChunk32 s v0 v1 v2 v3 := by
  simp only [execB32] at h
  split at h
  · rename_i v0 v1 v2 v3 h0 h1 h2 h3
    exact ⟨v0, v1, v2, v3, h0, h1, h2, h3, (Host.Outcome.next.inj h).symm⟩
  · simp at h

theorem execB32_of_rd {v0 v1 v2 v3 : Word} (h0 : rd s.mem .w8 (s.cursor 0) = some v0)
    (h1 : rd s.mem .w8 (s.cursor 8) = some v1) (h2 : rd s.mem .w8 (s.cursor 16) = some v2)
    (h3 : rd s.mem .w8 (s.cursor 24) = some v3) : execB32 s = .next (afterChunk32 s v0 v1 v2 v3) := by
  simp [execB32, afterChunk32, h0, h1, h2, h3]

/-- The state after a B16 whose chunk is `v0`, `v1`. -/
def afterChunk16 (s : State) (v0 v1 : Word) : State :=
  let s1 := s.mum (v0 ^^^ s.k.k1) (v1 ^^^ s.rS)
  let s2 := (s1.setS s1.mixOut).advance 16
  (s2.logReads [⟨.w8, s.cursor 0⟩, ⟨.w8, s.cursor 8⟩]).goto (afterB16 s2.rI)

theorem execB16_next (h : execB16 s = .next t) :
    ∃ v0 v1, rd s.mem .w8 (s.cursor 0) = some v0 ∧ rd s.mem .w8 (s.cursor 8) = some v1 ∧ t = afterChunk16 s v0 v1 := by
  simp only [execB16] at h
  split at h
  · rename_i v0 v1 h0 h1
    exact ⟨v0, v1, h0, h1, (Host.Outcome.next.inj h).symm⟩
  · simp at h

theorem execB16_of_rd {v0 v1 : Word} (h0 : rd s.mem .w8 (s.cursor 0) = some v0)
    (h1 : rd s.mem .w8 (s.cursor 8) = some v1) : execB16 s = .next (afterChunk16 s v0 v1) := by
  simp [execB16, afterChunk16, h0, h1]

theorem execTail_next (h : execTail s = .next t) :
    ∃ v0 v1, rd s.mem .w8 (s.fromEnd 16) = some v0 ∧ rd s.mem .w8 (s.fromEnd 8) = some v1 ∧
      t = ((s.setLanes v0 v1).logReads [⟨.w8, s.fromEnd 16⟩, ⟨.w8, s.fromEnd 8⟩]).goto .fin := by
  simp only [execTail] at h
  split at h
  · rename_i v0 v1 h0 h1
    exact ⟨v0, v1, h0, h1, (Host.Outcome.next.inj h).symm⟩
  · simp at h

theorem execTail_of_rd {v0 v1 : Word} (h0 : rd s.mem .w8 (s.fromEnd 16) = some v0)
    (h1 : rd s.mem .w8 (s.fromEnd 8) = some v1) :
    execTail s = .next (((s.setLanes v0 v1).logReads [⟨.w8, s.fromEnd 16⟩, ⟨.w8, s.fromEnd 8⟩]).goto .fin) := by
  simp [execTail, h0, h1]

/-! ### The launch and the host's stores -/

/-- A launch that answers a next state either was ignored, or latched a window that passed its checks. -/
theorem launch_next {o : BitVec 1} (h : launch o s = .next t) :
    (s.busy = true ∧ t = s) ∨
    (s.busy = false ∧ s.data.toNat + s.size.toNat ≤ 2 ^ 64 ∧
      s.mem.covers s.data.toNat (s.data.toNat + s.size.toNat) = true ∧
      t = ((s.latch o).flagsLaunch).goto .salt) := by
  simp only [launch] at h
  split at h
  · exact .inl ⟨‹_›, (Host.Outcome.next.inj h).symm⟩
  · split at h
    · simp at h
    · split at h
      · simp at h
      · rename_i h1 h2 h3
        exact .inr ⟨by simpa using h1, by omega, by simpa using h3, (Host.Outcome.next.inj h).symm⟩

/-- A launch of an idle block with a readable window happens. -/
theorem launch_of_readable {o : BitVec 1} (hb : s.busy = false) (hm : s.mem.wf = true)
    (hr : Readable s.mem s.data s.size) : launch o s = .next (((s.latch o).flagsLaunch).goto .salt) := by
  have hc := (Memory.covers_iff_readable hm hr.1).2 hr
  have := hr.1
  simp only [launch, hb, hc]
  simp
  omega

/-- A host store that answers a next state stored the byte, and changed no byte of a running command's window. -/
theorem hostStore_next {a : Word} {b : Byte} (h : hostStore a b s = .next t) :
    t = s.setMem (s.mem.store a.toNat b) ∧
      (s.busy = true → s.inWindow a = true → s.mem.byteAt a.toNat = some b) := by
  simp only [hostStore] at h
  split at h
  · simp at h
  · rename_i hc
    refine ⟨(Host.Outcome.next.inj h).symm, fun h1 h2 => ?_⟩
    simpa [h1, h2] using hc

/-! ### Host registers -/

/-- A host register write changes at most `SIZE`, `DATA` or `SEED`. -/
theorem writeRegister_cases (reg : Nat) (w : Word) (s : State) :
    (reg = 2 ∧ writeRegister reg w s = s.setSize w) ∨ (reg = 3 ∧ writeRegister reg w s = s.setData w) ∨
    (reg = 4 ∧ writeRegister reg w s = s.setSeed w) ∨
    (reg ≠ 2 ∧ reg ≠ 3 ∧ reg ≠ 4 ∧ writeRegister reg w s = s) := by
  unfold writeRegister
  split
  · exact .inl ⟨rfl, rfl⟩
  · exact .inr (.inl ⟨rfl, rfl⟩)
  · exact .inr (.inr (.inl ⟨rfl, rfl⟩))
  · rename_i h2 h3 h4
    exact .inr (.inr (.inr ⟨h2, h3, h4, rfl⟩))

/-- A host register read changes at most the model's own `hostRead` and `freeIdx`. -/
theorem readRegister_cases (reg : Nat) (s : State) :
    ∃ v j, readRegister reg s = (s.setHostRead v).drawn j := by
  unfold readRegister readUnspecified
  split
  · exact ⟨s.status, 0, rfl⟩
  · exact ⟨s.size, 0, rfl⟩
  · exact ⟨s.data, 0, rfl⟩
  · exact ⟨s.seed, 0, rfl⟩
  · split
    · exact ⟨s.result, 0, rfl⟩
    · exact ⟨s.freeNow 0, 1, rfl⟩
  · exact ⟨s.freeNow 0, 1, rfl⟩

/-! ### The platform's bus -/

/-- An access that names a register covers exactly that one; one that meets none of the six names a number above 5. -/
theorem RegMap.number_eq_some {m : RegMap} {x : Word} {width : ReadWidth} {n : Nat} (h : m.number x width = some n) :
    (n < 6 ∧ x = m.addr n ∧ width = .w8 ∧ ∀ j < 6, m.touches x width j = true → j = n) ∨
    (n = 6 ∧ ∀ j < 6, m.touches x width j = false) := by
  have hmem (j : Nat) : j ∈ (List.range 6).filter (m.touches x width) ↔ j < 6 ∧ m.touches x width j = true := by
    simp [List.mem_filter]
  simp only [RegMap.number] at h
  split at h
  · rename_i hl
    refine .inr ⟨(Option.some.inj h).symm, fun j hj => ?_⟩
    rw [hl] at hmem
    simpa [hj] using hmem j
  · rename_i k hl
    rw [hl] at hmem
    split at h
    · rename_i hk
      obtain rfl := Option.some.inj h
      exact .inl ⟨((hmem k).1 (by simp)).1, hk.1, hk.2, fun j hj ht => by simpa using (hmem j).2 ⟨hj, ht⟩⟩
    · simp at h
  · simp at h

end Sys2Proof.Machine
end

