-- ==== Sys2Proof/Laws/PerInstr.lean ====
section
/-! SUPPORT. Families of statements about the instruction as syntax, one lemma per constructor. -/

namespace Sys2Proof.Laws

/-- The encoder writes a form the checks of WellFormed admit (30_encoding.md R91 to R94, R97, R98). -/
def EncodesWellFormed.Statement (i : Instr) : Prop := (encode i).wf = true

theorem EncodesWellFormed.hash64 : EncodesWellFormed.Statement .hash64 := rfl
theorem EncodesWellFormed.hash32 : EncodesWellFormed.Statement .hash32 := rfl
theorem EncodesWellFormed.salt : EncodesWellFormed.Statement .salt := rfl
theorem EncodesWellFormed.pack0 : EncodesWellFormed.Statement .pack0 := rfl
theorem EncodesWellFormed.pack1 : EncodesWellFormed.Statement .pack1 := rfl
theorem EncodesWellFormed.pack2 : EncodesWellFormed.Statement .pack2 := rfl
theorem EncodesWellFormed.pack3 : EncodesWellFormed.Statement .pack3 := rfl
theorem EncodesWellFormed.pack4 : EncodesWellFormed.Statement .pack4 := rfl
theorem EncodesWellFormed.pack5 : EncodesWellFormed.Statement .pack5 := rfl
theorem EncodesWellFormed.pack6 : EncodesWellFormed.Statement .pack6 := rfl
theorem EncodesWellFormed.pack7 : EncodesWellFormed.Statement .pack7 := rfl
theorem EncodesWellFormed.pack8 : EncodesWellFormed.Statement .pack8 := rfl
theorem EncodesWellFormed.pack9 : EncodesWellFormed.Statement .pack9 := rfl
theorem EncodesWellFormed.pack10 : EncodesWellFormed.Statement .pack10 := rfl
theorem EncodesWellFormed.pack11 : EncodesWellFormed.Statement .pack11 := rfl
theorem EncodesWellFormed.pack12 : EncodesWellFormed.Statement .pack12 := rfl
theorem EncodesWellFormed.pack13 : EncodesWellFormed.Statement .pack13 := rfl
theorem EncodesWellFormed.pack14 : EncodesWellFormed.Statement .pack14 := rfl
theorem EncodesWellFormed.pack15 : EncodesWellFormed.Statement .pack15 := rfl
theorem EncodesWellFormed.pack16 : EncodesWellFormed.Statement .pack16 := rfl
theorem EncodesWellFormed.binit : EncodesWellFormed.Statement .binit := rfl
theorem EncodesWellFormed.b32 : EncodesWellFormed.Statement .b32 := rfl
theorem EncodesWellFormed.bjoin : EncodesWellFormed.Statement .bjoin := rfl
theorem EncodesWellFormed.b16 : EncodesWellFormed.Statement .b16 := rfl
theorem EncodesWellFormed.tail : EncodesWellFormed.Statement .tail := rfl
theorem EncodesWellFormed.fin : EncodesWellFormed.Statement .fin := rfl
theorem EncodesWellFormed.fold32 : EncodesWellFormed.Statement .fold32 := rfl
theorem EncodesWellFormed.ret : EncodesWellFormed.Statement .ret := rfl
theorem EncodesWellFormed.rd1 (a : Word) : EncodesWellFormed.Statement (.rd1 a) := rfl
theorem EncodesWellFormed.rd2 (a : Word) : EncodesWellFormed.Statement (.rd2 a) := rfl
theorem EncodesWellFormed.rd4 (a : Word) : EncodesWellFormed.Statement (.rd4 a) := rfl
theorem EncodesWellFormed.rd8 (a : Word) : EncodesWellFormed.Statement (.rd8 a) := rfl
theorem EncodesWellFormed.mum (a b : Word) : EncodesWellFormed.Statement (.mum a b) := rfl
theorem EncodesWellFormed.mix (a b : Word) : EncodesWellFormed.Statement (.mix a b) := rfl

end Sys2Proof.Laws
end

