-- ==== Sys2Proof/Laws/Step.lean ====
section
/-! SUPPORT. What one step can do: whose turn it is, and what the core does at each value of `UPC`. -/

namespace Sys2Proof.Machine

variable {s t : State}

/-! ### Turns -/

theorem step_of_noTurns (h : s.turns = []) : step s = coreTurn s := by
  simp [step, nextTurn, h]

theorem step_core {rest : List Turn} (h : s.turns = .core :: rest) : step s = coreTurn s.takeTurn := by
  simp [step, nextTurn, h]

theorem step_host {a : HostAction} {rest : List Turn} (h : s.turns = .host a :: rest) :
    step s = hostTurn a s.takeTurn := by
  simp [step, nextTurn, h]

theorem step_reset {rest : List Turn} (h : s.turns = .reset :: rest) : step s = .next s.takeTurn.blockReset := by
  simp [step, nextTurn, h]

theorem step_prim {u : BitVec 3} {a b : Word} {rest : List Turn} (h : s.turns = .prim u a b :: rest) :
    step s = primTurn u a b s.takeTurn := by
  simp [step, nextTurn, h]

/-- A step is one turn, taken from the queue or, when it is empty, the core's. -/
theorem step_cases (h : step s = .next t) :
    (s.turns = [] ∧ coreTurn s = .next t) ∨
    (∃ rest, s.turns = .core :: rest ∧ coreTurn s.takeTurn = .next t) ∨
    (∃ a rest, s.turns = .host a :: rest ∧ hostTurn a s.takeTurn = .next t) ∨
    (∃ rest, s.turns = .reset :: rest ∧ t = s.takeTurn.blockReset) ∨
    (∃ u a b rest, s.turns = .prim u a b :: rest ∧ primTurn u a b s.takeTurn = .next t) := by
  cases hs : s.turns with
  | nil => exact .inl ⟨rfl, by rwa [step_of_noTurns hs] at h⟩
  | cons x rest =>
    cases x with
    | core => exact .inr (.inl ⟨rest, rfl, by rwa [step_core hs] at h⟩)
    | host a => exact .inr (.inr (.inl ⟨a, rest, rfl, by rwa [step_host hs] at h⟩))
    | reset =>
      rw [step_reset hs] at h
      exact .inr (.inr (.inr (.inl ⟨rest, rfl, (Host.Outcome.next.inj h).symm⟩)))
    | prim u a b => exact .inr (.inr (.inr (.inr ⟨u, a, b, rest, rfl, by rwa [step_prim hs] at h⟩)))

/-- What a whole-register write can do. -/
theorem writeTurn_cases {n : Nat} {w : Word} (h : writeTurn n w s = .next t) :
    (∃ i, n = 0 ∧ decode (.cmd w) = .ok i ∧ exec i s = .next t) ∨
    (∃ r, n = 0 ∧ decode (.cmd w) = .error r ∧ t = s) ∨
    (n ≠ 0 ∧ t = writeRegister n w s) := by
  cases n with
  | zero =>
    simp only [writeTurn] at h
    split at h
    · rename_i i hi
      exact .inl ⟨i, rfl, hi, h⟩
    · rename_i r hr
      exact .inr (.inl ⟨r, rfl, hr, (Host.Outcome.next.inj h).symm⟩)
  | succ n => exact .inr (.inr ⟨by simp, (Host.Outcome.next.inj h).symm⟩)

/-- What a host turn can do, whether an access goes by register number or by bus address. -/
theorem hostTurn_cases {a : HostAction} (h : hostTurn a s = .next t) :
    (∃ w i, a.written s.bus = some (0, w) ∧ decode (.cmd w) = .ok i ∧ exec i s = .next t) ∨
    (∃ w r, a.written s.bus = some (0, w) ∧ decode (.cmd w) = .error r ∧ t = s) ∨
    (∃ n w, a.written s.bus = some (n, w) ∧ n ≠ 0 ∧ t = writeRegister n w s) ∨
    (∃ n, t = readRegister n s) ∨
    (∃ x b, a = .store x b ∧ hostStore x b s = .next t) := by
  have write {n : Nat} {w : Word} (ha : a.written s.bus = some (n, w)) (hw : writeTurn n w s = .next t) :
      (∃ w i, a.written s.bus = some (0, w) ∧ decode (.cmd w) = .ok i ∧ exec i s = .next t) ∨
      (∃ w r, a.written s.bus = some (0, w) ∧ decode (.cmd w) = .error r ∧ t = s) ∨
      (∃ n w, a.written s.bus = some (n, w) ∧ n ≠ 0 ∧ t = writeRegister n w s) := by
    rcases writeTurn_cases hw with ⟨i, rfl, hd, he⟩ | ⟨r, rfl, hd, he⟩ | ⟨hn, he⟩
    · exact .inl ⟨w, i, ha, hd, he⟩
    · exact .inr (.inl ⟨w, r, ha, hd, he⟩)
    · exact .inr (.inr ⟨n, w, ha, hn, he⟩)
  cases a with
  | writeReg n w =>
    rcases write rfl h with h | h | h
    · exact .inl h
    · exact .inr (.inl h)
    · exact .inr (.inr (.inl h))
  | readReg n => exact .inr (.inr (.inr (.inl ⟨n, (Host.Outcome.next.inj h).symm⟩)))
  | partialReg n => simp [hostTurn] at h
  | store x b => exact .inr (.inr (.inr (.inr ⟨x, b, rfl, h⟩)))
  | busRead x width =>
    simp only [hostTurn] at h
    split at h
    · rename_i n _
      exact .inr (.inr (.inr (.inl ⟨n, (Host.Outcome.next.inj h).symm⟩)))
    · simp at h
  | busWrite x width w =>
    simp only [hostTurn] at h
    split at h
    · rename_i n hn
      rcases write (by simp [HostAction.written, hn]) h with h | h | h
      · exact .inl h
      · exact .inr (.inl h)
      · exact .inr (.inr (.inl h))
    · simp at h

/-! ### The core's turn, by the value of `UPC` -/

theorem coreTurn_idle (h : s.upc = .idle) : coreTurn s = .next s := by
  simp [coreTurn, h, coreEncoding, decode, decodeUop]

theorem coreTurn_salt (h : s.upc = .salt) : coreTurn s = execSalt s := by
  simp [coreTurn, h, coreEncoding, decode, decodeUop, exec]

theorem coreTurn_binit (h : s.upc = .binit) : coreTurn s = execBinit s := by
  simp [coreTurn, h, coreEncoding, decode, decodeUop, exec]

theorem coreTurn_b32 (h : s.upc = .b32) : coreTurn s = execB32 s := by
  simp [coreTurn, h, coreEncoding, decode, decodeUop, exec]

theorem coreTurn_bjoin (h : s.upc = .bjoin) : coreTurn s = execBjoin s := by
  simp [coreTurn, h, coreEncoding, decode, decodeUop, exec]

theorem coreTurn_b16 (h : s.upc = .b16) : coreTurn s = execB16 s := by
  simp [coreTurn, h, coreEncoding, decode, decodeUop, exec]

theorem coreTurn_tail (h : s.upc = .tail) : coreTurn s = execTail s := by
  simp [coreTurn, h, coreEncoding, decode, decodeUop, exec]

theorem coreTurn_fin (h : s.upc = .fin) : coreTurn s = execFin s := by
  simp [coreTurn, h, coreEncoding, decode, decodeUop, exec]

theorem coreTurn_fold32 (h : s.upc = .fold32) : coreTurn s = execFold32 s := by
  simp [coreTurn, h, coreEncoding, decode, decodeUop, exec]

theorem coreTurn_ret (h : s.upc = .ret) : coreTurn s = execRet s := by
  simp [coreTurn, h, coreEncoding, decode, decodeUop, exec]

theorem coreTurn_pack {i : Instr} (h : s.upc = .pack) (hd : decodeSize s.rN = .ok i) : coreTurn s = exec i s := by
  simp [coreTurn, h, coreEncoding, decode, hd]

/-- `PACK` with a larger size is refused, and only that. -/
theorem coreTurn_pack_error {r : Reject} (h : s.upc = .pack) (hd : decodeSize s.rN = .error r) :
    coreTurn s = .refused .packSizeAbove16 := by
  have hr : r = .bulkSize := by
    unfold decodeSize at hd
    split at hd <;> simp_all
  simp [coreTurn, h, coreEncoding, decode, hd, hr]

end Sys2Proof.Machine
end

