-- ==== Sys2Proof/Tests/Slice0.lean ====
section
/-! SUPPORT. The model's own tests. The words are written out from the encoding tables of 30_encoding.md (R91 to R94), the
expected values are the worked examples of the rules (the rule is named at each), never the model's own answers. The
second half holds one witness for the hypotheses of each statement. -/

namespace Sys2Proof.Tests
open Sys2Proof Sys2Proof.Machine

/-! ## Decoding: every operation, from words written out bit by bit -/

theorem test_decode_commands :
    decode (.cmd 0b0000000000000000000000000000000000000000000000000000000000000001) = .ok .hash64 ∧
    decode (.cmd 0b0000000000000000000000000000000000000000000000000000000000000010) = .ok .hash32 := by decide

theorem test_decode_uops :
    decode (.uop 0b0001) = .ok .salt ∧ decode (.uop 0b0011) = .ok .binit ∧ decode (.uop 0b0100) = .ok .b32 ∧
    decode (.uop 0b0101) = .ok .bjoin ∧ decode (.uop 0b0110) = .ok .b16 ∧ decode (.uop 0b0111) = .ok .tail ∧
    decode (.uop 0b1000) = .ok .fin ∧ decode (.uop 0b1001) = .ok .fold32 ∧ decode (.uop 0b1010) = .ok .ret := by decide

theorem test_decode_sizes_0_to_8 :
    decode (.size 0x0000000000000000) = .ok .pack0 ∧ decode (.size 0x0000000000000001) = .ok .pack1 ∧
    decode (.size 0x0000000000000002) = .ok .pack2 ∧ decode (.size 0x0000000000000003) = .ok .pack3 ∧
    decode (.size 0x0000000000000004) = .ok .pack4 ∧ decode (.size 0x0000000000000005) = .ok .pack5 ∧
    decode (.size 0x0000000000000006) = .ok .pack6 ∧ decode (.size 0x0000000000000007) = .ok .pack7 ∧
    decode (.size 0x0000000000000008) = .ok .pack8 := by decide

theorem test_decode_sizes_9_to_16 :
    decode (.size 0x0000000000000009) = .ok .pack9 ∧ decode (.size 0x000000000000000A) = .ok .pack10 ∧
    decode (.size 0x000000000000000B) = .ok .pack11 ∧ decode (.size 0x000000000000000C) = .ok .pack12 ∧
    decode (.size 0x000000000000000D) = .ok .pack13 ∧ decode (.size 0x000000000000000E) = .ok .pack14 ∧
    decode (.size 0x000000000000000F) = .ok .pack15 ∧ decode (.size 0x0000000000000010) = .ok .pack16 := by decide

theorem test_decode_primitives :
    decode (.prim 0b000 7 0) = .ok (.rd1 7) ∧ decode (.prim 0b001 7 0) = .ok (.rd2 7) ∧
    decode (.prim 0b010 7 0) = .ok (.rd4 7) ∧ decode (.prim 0b011 7 0) = .ok (.rd8 7) ∧
    decode (.prim 0b100 7 9) = .ok (.mum 7 9) ∧ decode (.prim 0b101 7 9) = .ok (.mix 7 9) := by decide

/-- Codes the spec reserves are rejected by name (30_encoding.md R97 to R99); `2^32` is a bulk size (R92). -/
theorem test_decode_rejects :
    decode (.cmd 0) = .error .reservedCommand ∧ decode (.cmd 3) = .error .reservedCommand ∧
    decode (.cmd 0x0000000000000101) = .error .reservedCommand ∧
    decode (.cmd 0x8000000000000001) = .error .reservedCommand ∧ decode (.uop 0b0000) = .error .idle ∧
    decode (.uop 0b0010) = .error .packNeedsSize ∧ decode (.uop 0b1011) = .error .reservedUop ∧
    decode (.uop 0b1111) = .error .reservedUop ∧ decode (.size 17) = .error .bulkSize ∧
    decode (.size 0x0000000100000000) = .error .bulkSize ∧ decode (.prim 0b110 0 0) = .error .reservedRequest ∧
    decode (.prim 0b111 0 0) = .error .reservedRequest := by decide

/-- Table words as the host asks for them, in the width of the row rounded up to bytes (log 18). -/
theorem test_decode_table_words :
    decodeTableWord 64 1 = some .hash64 ∧ decodeTableWord 64 2 = some .hash32 ∧ decodeTableWord 64 16 = some .pack16 ∧
    decodeTableWord 8 1 = some .salt ∧ decodeTableWord 8 10 = some .ret ∧ decodeTableWord 8 0 = some (.rd1 0) ∧
    decodeTableWord 8 2 = some (.rd4 0) ∧ decodeTableWord 3 5 = some (.mix 0 0) ∧ decodeTableWord 4 4 = some .b32 ∧
    decodeTableWord 64 17 = none := by decide

/-! ## WellFormed: an ill-formed term for each check -/

theorem test_ill_formed_command_opcode : cmdWordOk 0 = false ∧ cmdWordOk 3 = false ∧ cmdWordOk 1 = true := by decide
theorem test_ill_formed_command_reserved : cmdWordOk 0x0000000000000102 = false ∧ cmdOpc 0x102 = 2 ∧ cmdRsv 0x102 = 1 := by
  decide
theorem test_ill_formed_size : shortSize 17 = false ∧ shortSize 0x0000000100000000 = false ∧ shortSize 16 = true := by decide
theorem test_ill_formed_uop : uopCodeOk 0 = false ∧ uopCodeOk 2 = false ∧ uopCodeOk 11 = false ∧ uopCodeOk 10 = true := by
  decide
theorem test_ill_formed_request : primOk 0b110 0 = false ∧ primOk 0b000 1 = false ∧ primOk 0b101 1 = true := by decide
theorem test_ill_formed_encoded :
    (Encoded.cmd 3).wf = false ∧ (Encoded.size 17).wf = false ∧ (Encoded.uop 2).wf = false ∧
      (Encoded.prim 7 0 0).wf = false := by decide
theorem test_ill_formed_constant : oddWord 2 = false ∧ oddWord 3 = true := by decide
theorem test_ill_formed_memory :
    Memory.wf [(5, 1), (5, 2)] = false ∧ Memory.wf [(6, 1), (5, 2)] = false ∧ Memory.wf [(2 ^ 64, 0)] = false ∧
      Memory.wf [(5, 1), (6, 2)] = true := by decide

/-! ## Small states -/

/-- `KTOY` (00_scope.md R7). -/
def ktoy : ConstTable := ⟨1, 3, 5, 7⟩

/-- `KREF` (00_scope.md R7). -/
def kref : ConstTable := ⟨0xA0761D6478BD642F, 0xE7037ED1A0B428DB, 0x8EBC6AF09C88C6E3, 0x589965CC75374CC3⟩

/-- A buffer laid down in the input space. -/
def memOf (base : Nat) : List Byte → Memory
  | [] => []
  | b :: bs => (base, b) :: memOf (base + 1) bs

/-- An idle block with the toy constants. -/
def idle : State := { State.reset with k := ktoy }

/-- A block that runs a command of size `n` over a buffer at 0x1000, with `i` bytes left and µop `u` next. -/
def running (u : Upc) (n i : Nat) (buf : List Byte) : State :=
  { idle with
    busy := true, upc := u, rN := BitVec.ofNat 64 n, rI := BitVec.ofNat 64 i
    rP := BitVec.ofNat 64 (0x1000 + n - i), mem := memOf 0x1000 buf }

/-- The example buffer of 42_short_dispatch.md: `A0 A1 … AF`. -/
def exampleBuf : List Byte :=
  [0xA0, 0xA1, 0xA2, 0xA3, 0xA4, 0xA5, 0xA6, 0xA7, 0xA8, 0xA9, 0xAA, 0xAB, 0xAC, 0xAD, 0xAE, 0xAF]

/-- The memory of the worked examples of 41_byte_readers.md. -/
def readerBuf : List Byte := [0x11, 0x22, 0x33, 0x44, 0x55, 0x66, 0x77, 0x88, 0x99]

/-- A component of a next state. -/
def after {α : Type} (o : Host.Outcome State Fault Refusal) (f : State → α) : Option α :=
  match o with
  | .next s => some (f s)
  | .fault _ => none
  | .refused _ => none

/-- Whether there is a next state. -/
def goesOn (o : Host.Outcome State Fault Refusal) : Bool := (after o fun _ => ()).isSome

/-! ## Commands and the µops that open and close them -/

/-- 45_commands.md R200: the latched registers. -/
theorem test_hash64_latches :
    after (exec .hash64 { idle with size := 1, data := 0x1000, seed := 9, mem := memOf 0x1000 [5] })
      (fun t => (t.rN, t.rI, t.rP, t.rS, t.rOPL, t.upc)) = some (1, 1, 0x1000, 9, 0, .salt) := by decide

/-- 45_commands.md R206 on the empty buffer, KREF: the value of 45_commands.md R201's worked example. -/
theorem test_hash64_empty_buffer : h64 kref [] 0 = 0x42BC986DC5EEC4D3 ∧ h64 ktoy [] 0 = 9 := by decide

theorem test_hash32_latches :
    after (exec .hash32 { idle with size := 1, data := 0x1000, seed := 9, mem := memOf 0x1000 [5] })
      (fun t => (t.rN, t.rI, t.rP, t.rS, t.rOPL, t.upc)) = some (1, 1, 0x1000, 9, 1, .salt) := by decide

/-- 45_commands.md R202's worked example. -/
theorem test_hash32_empty_buffer : h32 kref [] 0 = 0x83322C66 := by decide

/-- 45_commands.md R203's worked example. -/
theorem test_salt :
    after (exec .salt { running .salt 17 17 [] with k := kref, rS := 0x1234 }) (fun t => (t.rS, t.upc)) =
      some (0xA0761D6478BD761B, .binit) := by decide

/-- 45_commands.md R203: `N = 16` goes to PACK; the comparison is on all 64 bits. -/
theorem test_salt_chooses_the_path :
    after (exec .salt { idle with rN := 16 }) (·.upc) = some .pack ∧
      after (exec .salt { idle with rN := 0x0000000100000000 }) (·.upc) = some .binit := by decide

/-- 45_commands.md R204's worked example. -/
theorem test_ret :
    after (exec .ret { running .ret 0 0 [] with rR := 9 }) (fun t => (t.result, t.status, t.upc)) =
      some (9, 2, .idle) := by decide

/-! ## Packing layouts: the worked examples of R142 to R158 -/

theorem test_pack0 : after (exec .pack0 (running .pack 0 0 exampleBuf)) (fun t => (t.rX0, t.rX1)) =
    some (0x0000000000000000, 0x0000000000000000) := by decide
theorem test_pack1 : after (exec .pack1 (running .pack 1 1 exampleBuf)) (fun t => (t.rX0, t.rX1)) =
    some (0x00000000000000A0, 0x0000000000000000) := by decide
theorem test_pack2 : after (exec .pack2 (running .pack 2 2 exampleBuf)) (fun t => (t.rX0, t.rX1)) =
    some (0x000000000000A1A0, 0x0000000000000000) := by decide
theorem test_pack3 : after (exec .pack3 (running .pack 3 3 exampleBuf)) (fun t => (t.rX0, t.rX1)) =
    some (0x0000000000A2A1A0, 0x0000000000000000) := by decide
theorem test_pack4 : after (exec .pack4 (running .pack 4 4 exampleBuf)) (fun t => (t.rX0, t.rX1)) =
    some (0x00000000A3A2A1A0, 0x0000000000000000) := by decide
theorem test_pack5 : after (exec .pack5 (running .pack 5 5 exampleBuf)) (fun t => (t.rX0, t.rX1)) =
    some (0x00000000A3A2A1A0, 0x00000000000000A4) := by decide
theorem test_pack6 : after (exec .pack6 (running .pack 6 6 exampleBuf)) (fun t => (t.rX0, t.rX1)) =
    some (0x00000000A3A2A1A0, 0x000000000000A5A4) := by decide
theorem test_pack7 : after (exec .pack7 (running .pack 7 7 exampleBuf)) (fun t => (t.rX0, t.rX1)) =
    some (0x00000000A3A2A1A0, 0x0000000000A6A5A4) := by decide
theorem test_pack8 : after (exec .pack8 (running .pack 8 8 exampleBuf)) (fun t => (t.rX0, t.rX1)) =
    some (0x00000000A3A2A1A0, 0x00000000A7A6A5A4) := by decide
theorem test_pack9 : after (exec .pack9 (running .pack 9 9 exampleBuf)) (fun t => (t.rX0, t.rX1)) =
    some (0xA7A6A5A4A3A2A1A0, 0x00000000000000A8) := by decide
theorem test_pack10 : after (exec .pack10 (running .pack 10 10 exampleBuf)) (fun t => (t.rX0, t.rX1)) =
    some (0xA7A6A5A4A3A2A1A0, 0x000000000000A9A8) := by decide
theorem test_pack11 : after (exec .pack11 (running .pack 11 11 exampleBuf)) (fun t => (t.rX0, t.rX1)) =
    some (0xA7A6A5A4A3A2A1A0, 0x0000000000AAA9A8) := by decide
theorem test_pack12 : after (exec .pack12 (running .pack 12 12 exampleBuf)) (fun t => (t.rX0, t.rX1)) =
    some (0xA7A6A5A4A3A2A1A0, 0x00000000ABAAA9A8) := by decide
theorem test_pack13 : after (exec .pack13 (running .pack 13 13 exampleBuf)) (fun t => (t.rX0, t.rX1)) =
    some (0xA7A6A5A4A3A2A1A0, 0x000000ACABAAA9A8) := by decide
theorem test_pack14 : after (exec .pack14 (running .pack 14 14 exampleBuf)) (fun t => (t.rX0, t.rX1)) =
    some (0xA7A6A5A4A3A2A1A0, 0x0000ADACABAAA9A8) := by decide
theorem test_pack15 : after (exec .pack15 (running .pack 15 15 exampleBuf)) (fun t => (t.rX0, t.rX1)) =
    some (0xA7A6A5A4A3A2A1A0, 0x00AEADACABAAA9A8) := by decide
theorem test_pack16 : after (exec .pack16 (running .pack 16 16 exampleBuf)) (fun t => (t.rX0, t.rX1)) =
    some (0xA7A6A5A4A3A2A1A0, 0xAFAEADACABAAA9A8) := by decide

/-! ## The bulk folder -/

/-- 43_bulk_folder.md R170: the worked example, with `N = 32`, which goes to B16. -/
theorem test_binit : after (exec .binit { running .binit 32 32 [] with rS := 1 }) (fun t => (t.rS0, t.rS1, t.upc)) =
    some (1, 1, .b16) := by decide

/-- 43_bulk_folder.md R170: `N = 33` goes to B32. -/
theorem test_binit_33 : after (exec .binit (running .binit 33 33 [])) (·.upc) = some .b32 := by decide

/-- 43_bulk_folder.md R171: the worked example, with `I = 33`, which leaves `I = 1`. -/
theorem test_b32 :
    after (exec .b32 { running .b32 33 33 (List.replicate 33 0) with rS0 := 1, rS1 := 1 })
      (fun t => (t.rS0, t.rS1, t.rP, t.rI, t.upc)) = some (5, 7, 0x1020, 1, .bjoin) := by decide

/-- 43_bulk_folder.md R171: which bytes go where; a first word of `K[2]` makes `S0` 0. -/
theorem test_b32_operands :
    after (exec .b32 { running .b32 65 65 ((5 :: List.replicate 15 0) ++ List.replicate 49 0) with rS0 := 1, rS1 := 2 })
      (fun t => (t.rS0, t.rS1, t.rI, t.upc)) = some (0, 14, 33, .b32) := by decide

/-- 43_bulk_folder.md R172: the worked example. -/
theorem test_bjoin : after (exec .bjoin { running .bjoin 40 8 [] with rS0 := 5, rS1 := 7 }) (fun t => (t.rS, t.upc)) =
    some (2, .tail) := by decide

/-- 43_bulk_folder.md R172: more than 16 bytes left. -/
theorem test_bjoin_17 : after (exec .bjoin (running .bjoin 49 17 [])) (·.upc) = some .b16 := by decide

/-- 43_bulk_folder.md R173: the worked example, with `I = 17`, which leaves `I = 1`. -/
theorem test_b16 :
    after (exec .b16 { running .b16 17 17 (List.replicate 17 0) with rS := 1 })
      (fun t => (t.rS, t.rP, t.rI, t.upc)) = some (3, 0x1010, 1, .tail) := by decide

/-- 43_bulk_folder.md R174: the worked example, `N = 17`, `buf[k] = k`. -/
theorem test_tail :
    after (exec .tail (running .tail 17 1 [0, 1, 2, 3, 4, 5, 6, 7, 8, 9, 10, 11, 12, 13, 14, 15, 16]))
      (fun t => (t.rX0, t.rX1, t.upc)) = some (0x0807060504030201, 0x100F0E0D0C0B0A09, .fin) := by decide

/-! ## The finalizer -/

/-- 44_finalizer.md R190: the worked example. -/
theorem test_fin : after (exec .fin { running .fin 0 0 [] with rS := 1 }) (fun t => (t.rR, t.upc)) = some (9, .ret) := by
  decide

/-- 44_finalizer.md R190: HASH32 goes to FOLD32. -/
theorem test_fin_hash32 : after (exec .fin { running .fin 0 0 [] with rOPL := 1 }) (·.upc) = some .fold32 := by decide

/-- 44_finalizer.md R191: the worked example. -/
theorem test_fold32 :
    after (exec .fold32 { running .fold32 0 0 [] with rR := 0x42BC986DC5EEC4D3 }) (fun t => (t.rR, t.upc)) =
      some (0x0000000083322C66, .ret) := by decide

/-- 44_finalizer.md R191: the borrow is discarded. -/
theorem test_fold32_borrow :
    after (exec .fold32 { running .fold32 0 0 [] with rR := 0x0000000100000000 }) (·.rR) = some 0xFFFFFFFF := by decide

/-! ## The primitives -/

/-- 41_byte_readers.md R130 to R133: the worked examples. -/
theorem test_rd1 : after (exec (.rd1 0x1002) (running .idle 0 0 readerBuf)) (·.ret) = some 0x33 := by decide
theorem test_rd2 : after (exec (.rd2 0x1001) (running .idle 0 0 readerBuf)) (·.ret) = some 0x3322 := by decide
theorem test_rd4 : after (exec (.rd4 0x1003) (running .idle 0 0 readerBuf)) (·.ret) = some 0x77665544 := by decide
theorem test_rd8 : after (exec (.rd8 0x1001) (running .idle 0 0 readerBuf)) (·.ret) = some 0x9988776655443322 := by decide

/-- 40_mix.md R121: the worked example. -/
theorem test_mum : after (exec (.mum 0xFFFFFFFFFFFFFFFF 0x2) idle) (fun t => (t.rMA, t.rMB)) =
    some (0xFFFFFFFFFFFFFFFE, 0x0000000000000001) := by decide

/-- 40_mix.md R122: the worked example. -/
theorem test_mix : after (exec (.mix 0x0123456789ABCDEF 0xFEDCBA9876543210) idle) (fun t => (t.rMA, t.rMB, t.ret)) =
    some (0x2236D88FE5618CF0, 0x0121FA00AD77D742, 0x2317228F48165BB2) := by decide

/-! ## The placing of a table word -/

/-- From reset, the very next step runs the placed word: HASH64 launches, RET raises `DONE` (log 18, 19). -/
theorem test_fetch_word :
    after (step (State.reset.withFetchWord 64 1)) (·.upc) = some .salt ∧
      after (step (State.reset.withFetchWord 8 10)) (·.status) = some 2 ∧
      after (step (State.reset.withFetchWord 64 0)) (·.upc) = some .fin := by decide

/-! ## The platform's bus (00_scope.md R5), at the offsets 10_state.md R22 suggests, `8 * number` -/

/-- An idle block whose registers sit at 0x4000, 8 bytes apart, before one host access. -/
def onBus (a : HostAction) : State := { idle with bus := ⟨0x4000, 8⟩, turns := [.host a] }

/-- Register 0 is `CMD`, 2 `SIZE`, 4 `SEED`; the address space wraps. -/
theorem test_bus_write :
    after (step (onBus (.busWrite 0x4000 .w8 2))) (fun t => (t.upc, t.rOPL)) = some (.salt, 1) ∧
      after (step (onBus (.busWrite 0x4010 .w8 7))) (fun t => (t.size, t.data, t.seed)) = some (7, 0, 0) ∧
      after (step { onBus (.busWrite 0x8 .w8 7) with bus := ⟨0xFFFFFFFFFFFFFFE8, 8⟩ }) (·.seed) = some 7 := by decide

theorem test_bus_read :
    after (step { onBus (.busRead 0x4008 .w8) with done := true }) (·.hostRead) = some 2 ∧
      after (step { onBus (.busRead 0x4028 .w8) with done := true, result := 9 }) (·.hostRead) = some 9 := by decide

/-! ## Witnesses: concrete states and operands that meet the hypotheses of each statement -/

theorem next_of {o : Host.Outcome State Fault Refusal} (h : goesOn o = true) : ∃ t, o = .next t := by
  cases o with
  | next t => exact ⟨t, rfl⟩
  | fault _ => simp [goesOn, after] at h
  | refused _ => simp [goesOn, after] at h

/-- A window that passes the launch's checks is readable. -/
theorem readable_of {m : Memory} {base n : Word} (h : base.toNat + n.toNat ≤ 2 ^ 64)
    (hc : m.covers base.toNat (base.toNat + n.toNat) = true) : Readable m base n :=
  ⟨h, fun _ h1 h2 => Memory.isSome_of_covers hc h1 h2⟩

/-- A buffer laid down in the input space stands there. -/
theorem holds_of {m : Memory} {base : Word} {buf : List Byte} (h : base.toNat + buf.length ≤ 2 ^ 64)
    (hb : ∀ j : Fin buf.length, m.byteAt (base.toNat + j.val) = some (buf[j.val])) : HoldsAt m base buf :=
  ⟨h, fun j hj => hb ⟨j, hj⟩⟩

/-- A host write to `CMD` is pending on an idle block. -/
def commanded (w : Word) : State := { idle with turns := [.host (.writeReg 0 w)] }

/-- The last byte of the address space, and a launch of it: the window ends at `2^64`. -/
def topByte : State := { idle with size := 1, data := 0xFFFFFFFFFFFFFFFF, mem := [(0xFFFFFFFFFFFFFFFF, 7)] }

/-- A running block whose reads and counts are all within a 40-byte buffer. -/
def mid (u : Upc) (n i : Nat) : State := running u n i (List.replicate 40 0)

theorem witness_EveryFormStandsForItsInstruction :
    (Encoded.cmd 2).wf = true ∧ decode (.cmd 2) = .ok .hash32 ∧ (Encoded.size 16).wf = true ∧
      decode (.size 16) = .ok .pack16 ∧ (Encoded.uop 10).wf = true ∧ decode (.uop 10) = .ok .ret ∧
      (Encoded.prim 5 7 9).wf = true ∧ decode (.prim 5 7 9) = .ok (.mix 7 9) := by decide

theorem witness_SizeSelectsTheLayout :
    16 < (17 : Word).toNat ∧ decode (.size 16) = .ok .pack16 ∧
      goesOn (exec .salt { idle with rN := 17 }) = true ∧ 16 < ({ idle with rN := 17 } : State).rN.toNat ∧
      goesOn (exec .salt { idle with rN := 16 }) = true ∧ ({ idle with rN := 16 } : State).rN.toNat ≤ 16 := by decide

/-- No opcode, an opcode next to the valid ones, a valid opcode with a reserved bit set. -/
theorem witness_InvalidCommandWordIsIgnored :
    ∀ w ∈ [(0 : Word), 3, 0x0000000000000101, 0x8000000000000002],
      (commanded w).turns = [.host (.writeReg 0 w)] ∧
        ¬ (w.extractLsb' 8 56 = 0#56 ∧ (w.extractLsb' 0 8 = 0x01#8 ∨ w.extractLsb' 0 8 = 0x02#8)) := by
  intro w hw
  simp only [List.mem_cons, List.not_mem_nil, or_false] at hw
  rcases hw with rfl | rfl | rfl | rfl <;> exact ⟨rfl, by decide⟩

theorem witness_StepRunsTheDecodedInstruction :
    ((mid .fin 0 0).turns = [] ∧ decode (coreEncoding (mid .fin 0 0).upc (mid .fin 0 0).rN) = .ok .fin) ∧
    ({ mid .pack 16 16 with turns := [.core] }.turns = [.core] ∧
      decode (coreEncoding (mid .pack 16 16).upc (mid .pack 16 16).rN) = .ok .pack16) ∧
    ((commanded 1).turns = [.host (.writeReg 0 1)] ∧ decode (.cmd 1) = .ok .hash64) ∧
    ({ idle with turns := [.prim 5 7 9] }.turns = [.prim 5 7 9] ∧ decode (.prim 5 7 9) = .ok (.mix 7 9)) :=
  ⟨⟨rfl, by decide⟩, ⟨rfl, by decide⟩, ⟨rfl, by decide⟩, ⟨rfl, by decide⟩⟩

theorem witness_PlacedTableWordIsRun :
    decodeTableWord 64 1 = some .hash64 ∧ decode (.cmd 1) = .ok .hash64 ∧ decodeTableWord 64 16 = some .pack16 ∧
      decodeTableWord 8 4 = some .b32 ∧ decodeTableWord 8 0 = some (.rd1 0) := by decide

theorem witness_IdleBlockKeepsEverything :
    (idle.upc = .idle ∧ idle.turns = []) ∧ ({ idle with turns := [.core] }.turns = [.core]) ∧
    ((commanded 2).upc = .idle ∧ after (step (commanded 2)) (·.upc) = some .salt) ∧
    ((onBus (.busWrite 0x4000 .w8 2)).upc = .idle ∧ after (step (onBus (.busWrite 0x4000 .w8 2))) (·.upc) = some .salt) := by
  decide

/-- Every operation, on one state over one buffer: each has a next state, so no case of a statement over all operations
is empty. -/
theorem witness_every_operation_completes :
    ∀ i ∈ [Instr.hash64, .hash32, .salt, .pack0, .pack1, .pack2, .pack3, .pack4, .pack5, .pack6, .pack7, .pack8, .pack9,
      .pack10, .pack11, .pack12, .pack13, .pack14, .pack15, .pack16, .binit, .b32, .bjoin, .b16, .tail, .fin, .fold32,
      .ret, .rd1 0x1000, .rd2 0x1000, .rd4 0x1000, .rd8 0x1000, .mum 7 9, .mix 7 9],
      goesOn (exec i { mid .idle 40 40 with busy := false }) = true := by decide

theorem witness_SuccessorRelationIsComplete :
    (∃ t, exec .hash64 (mid .salt 17 17) = .next t) ∧ (∃ t, exec .hash64 idle = .next t) ∧
      (∃ t, exec .b32 (mid .b32 33 33) = .next t) ∧ (∃ t, exec .tail (mid .tail 17 1) = .next t) :=
  ⟨next_of (by decide), next_of (by decide), next_of (by decide), next_of (by decide)⟩

/-- An empty window, a window that ends at `2^64`, and a busy block; each kind of write at its clause. -/
theorem witness_LaunchLatchesTheOperands :
    (idle.busy = false ∧ idle.mem.wf = true ∧ Readable idle.mem idle.data idle.size) ∧
    (topByte.busy = false ∧ topByte.mem.wf = true ∧ Readable topByte.mem topByte.data topByte.size) ∧
    (mid .salt 17 17).busy = true ∧ (commanded 3).turns = [.host (.writeReg 0 3)] ∧
    (commanded 1).turns = [.host (.writeReg 0 1)] ∧
    { idle with turns := [.host (.writeReg (1 + 1) 5)] }.turns = [.host (.writeReg (1 + 1) 5)] :=
  ⟨⟨rfl, rfl, readable_of (by decide) (by decide)⟩, ⟨by decide, by decide, readable_of (by decide) (by decide)⟩, by decide,
    rfl, rfl, rfl⟩

theorem witness_EmptyWindowLaunchesAnywhere :
    { idle with data := 0xFFFFFFFFFFFFFFFF }.busy = false ∧ { idle with data := 0xFFFFFFFFFFFFFFFF }.size = 0 := by decide

/-- A window one byte too long for the address space; a window of the last address, with no byte there. -/
theorem witness_LaunchOfABadWindowIsRefused :
    (topByte.busy = false ∧ { topByte with size := 2 }.data.toNat + { topByte with size := 2 }.size.toNat > 2 ^ 64) ∧
    ({ topByte with mem := [] }.data.toNat + topByte.size.toNat ≤ 2 ^ 64 ∧ topByte.data.toNat ≤ 0xFFFFFFFFFFFFFFFF ∧
      0xFFFFFFFFFFFFFFFF < topByte.data.toNat + topByte.size.toNat ∧
      Memory.byteAt [] 0xFFFFFFFFFFFFFFFF = none) := by decide

theorem witness_WritesWhileBusyDoNotTouchTheCommand :
    ∀ r ∈ [0, 2, 3, 4], { mid .salt 17 17 with turns := [.host (.writeReg r 1)] }.busy = true ∧
      { mid .salt 17 17 with turns := [.host (.writeReg r 1)] }.turns = [.host (.writeReg r 1)] := by decide

/-- At the lowest address and across the top of the address space, where addresses wrap. -/
theorem witness_ReadersAreLittleEndian :
    ([5] : List Byte).length = ReadWidth.bytes .w1 ∧
    (∀ j (h : j < ([5] : List Byte).length), Memory.byteAt [(0, 5)] ((0 : Word) + BitVec.ofNat 64 j).toNat =
      some (([5] : List Byte)[j])) ∧
    (∀ j (h : j < ([7, 8] : List Byte).length), Memory.byteAt [(0, 8), (0xFFFFFFFFFFFFFFFF, 7)]
      ((0xFFFFFFFFFFFFFFFF : Word) + BitVec.ofNat 64 j).toNat = some (([7, 8] : List Byte)[j])) :=
  ⟨rfl, fun j h => by
    have : j = 0 := by simp at h; omega
    subst this; rfl, fun j h => by
    have : j = 0 ∨ j = 1 := by simp at h; omega
    rcases this with rfl | rfl <;> rfl⟩

theorem witness_ReaderValues :
    (∀ j : Fin 8, ((memOf 0x1000 readerBuf).byteAt ((0x1000 : Word) + BitVec.ofNat 64 j.val).toNat).isSome = true) ∧
    rd (memOf 0x1000 readerBuf) .w8 0x1000 = some 0x8877665544332211 ∧
    HoldsAt (memOf 0x1000 readerBuf) 0x1000 [0x11, 0x22, 0x33, 0x44, 0x55, 0x66, 0x77, 0x88, 0x99] ∧
    Memory.byteAt [(3, 0xFF)] (3 : Word).toNat = some 0xFF :=
  ⟨by decide, by decide, holds_of (by decide) (by decide), by decide⟩

/-- The last address, and a misaligned span that ends where the bytes end. -/
theorem witness_ReadersCompleteOnReadableBytes :
    rd topByte.mem .w1 0xFFFFFFFFFFFFFFFF = some 7 ∧
    rd (running .idle 0 0 readerBuf).mem .w2 0x1007 = some 0x9988 ∧
    rd (running .idle 0 0 readerBuf).mem .w4 0x1005 = some 0x99887766 ∧
    rd (running .idle 0 0 readerBuf).mem .w8 0x1001 = some 0x9988776655443322 := by decide

/-- The last byte of each span is the one that is missing. -/
theorem witness_ReaderOfAnAbsentByteIsRefused :
    (running .idle 0 0 readerBuf).mem.byteAt ((0x1009 : Word) + BitVec.ofNat 64 0).toNat = none ∧
    (running .idle 0 0 readerBuf).mem.byteAt ((0x1008 : Word) + BitVec.ofNat 64 1).toNat = none ∧
    (running .idle 0 0 readerBuf).mem.byteAt ((0x1006 : Word) + BitVec.ofNat 64 3).toNat = none ∧
    (running .idle 0 0 readerBuf).mem.byteAt ((0x1002 : Word) + BitVec.ofNat 64 7).toNat = none := by decide

theorem witness_LawsOfMix : (0xFFFFFFFF : Word).toNat * (0x100000001 : Word).toNat < 2 ^ 64 := by decide

theorem witness_LayoutsForSizes0To3 :
    HoldsAt (running .pack 1 1 exampleBuf).mem (running .pack 1 1 exampleBuf).rP [0xA0] ∧
    HoldsAt (running .pack 2 2 exampleBuf).mem (running .pack 2 2 exampleBuf).rP [0xA0, 0xA1] ∧
    HoldsAt (running .pack 3 3 exampleBuf).mem (running .pack 3 3 exampleBuf).rP [0xA0, 0xA1, 0xA2] ∧
    HoldsAt topByte.mem topByte.data [7] :=
  ⟨holds_of (by decide) (by decide), holds_of (by decide) (by decide), holds_of (by decide) (by decide),
    holds_of (by decide) (by decide)⟩

theorem witness_LayoutsForSizes4To8 :
    HoldsAt (running .pack 4 4 exampleBuf).mem (running .pack 4 4 exampleBuf).rP [0xA0, 0xA1, 0xA2, 0xA3] ∧
    HoldsAt (running .pack 5 5 exampleBuf).mem (running .pack 5 5 exampleBuf).rP [0xA0, 0xA1, 0xA2, 0xA3, 0xA4] ∧
    HoldsAt (running .pack 6 6 exampleBuf).mem (running .pack 6 6 exampleBuf).rP [0xA0, 0xA1, 0xA2, 0xA3, 0xA4, 0xA5] ∧
    HoldsAt (running .pack 7 7 exampleBuf).mem (running .pack 7 7 exampleBuf).rP
      [0xA0, 0xA1, 0xA2, 0xA3, 0xA4, 0xA5, 0xA6] ∧
    HoldsAt (running .pack 8 8 exampleBuf).mem (running .pack 8 8 exampleBuf).rP
      [0xA0, 0xA1, 0xA2, 0xA3, 0xA4, 0xA5, 0xA6, 0xA7] :=
  ⟨holds_of (by decide) (by decide), holds_of (by decide) (by decide), holds_of (by decide) (by decide),
    holds_of (by decide) (by decide), holds_of (by decide) (by decide)⟩

/-- For each of the sizes 9 to 16. -/
theorem witness_LayoutsForSizes9To16 (r : Nat) (h : 1 ≤ r ∧ r ≤ 8) :
    (exampleBuf.take 8).length = 8 ∧ ((exampleBuf.drop 8).take r).length = r ∧
      HoldsAt (running .pack (8 + r) (8 + r) exampleBuf).mem (running .pack (8 + r) (8 + r) exampleBuf).rP
        (exampleBuf.take 8 ++ (exampleBuf.drop 8).take r) := by
  obtain ⟨h1, h2⟩ := h
  interval_cases r <;> exact ⟨rfl, rfl, holds_of (by decide) (by decide)⟩

theorem witness_LayoutsReadEachByteOnce :
    decode (.size 0) = .ok .pack0 ∧ goesOn (exec .pack0 (running .pack 0 0 [])) = true ∧
    decode (.size 16) = .ok .pack16 ∧ goesOn (exec .pack16 (running .pack 16 16 exampleBuf)) = true := by decide

/-- `I = 33`, where the loop exits, and `I = 65`, where it does not. -/
theorem witness_B32FoldsAChunkIntoTheAccumulators :
    (32 < (mid .b32 33 33).rI.toNat ∧ rd (mid .b32 33 33).mem .w8 (mid .b32 33 33).rP = some 0 ∧
      rd (mid .b32 33 33).mem .w8 ((mid .b32 33 33).rP + 8) = some 0 ∧
      rd (mid .b32 33 33).mem .w8 ((mid .b32 33 33).rP + 16) = some 0 ∧
      rd (mid .b32 33 33).mem .w8 ((mid .b32 33 33).rP + 24) = some 0) ∧
    (32 < (mid .b32 65 65).rI.toNat ∧ rd (mid .b32 65 65).mem .w8 ((mid .b32 65 65).rP + 24) = some 0) := by decide

/-- `I = 17` and `I = 32`. -/
theorem witness_B16FoldsAChunkIntoTheSeed :
    ∀ i ∈ [17, 32], 16 < (mid .b16 i i).rI.toNat ∧ rd (mid .b16 i i).mem .w8 (mid .b16 i i).rP = some 0 ∧
      rd (mid .b16 i i).mem .w8 ((mid .b16 i i).rP + 8) = some 0 := by decide

/-- `I = 1` and `I = 16`. -/
theorem witness_TailLoadsTheLastSixteenBytes :
    ∀ i ∈ [1, 16], 1 ≤ (mid .tail 17 i).rI.toNat ∧ (mid .tail 17 i).rI.toNat ≤ 16 ∧
      rd (mid .tail 17 i).mem .w8 ((mid .tail 17 i).rP + (mid .tail 17 i).rI - 16) = some 0 ∧
      rd (mid .tail 17 i).mem .w8 ((mid .tail 17 i).rP + (mid .tail 17 i).rI - 8) = some 0 := by decide

theorem witness_CornerCasesOfFin :
    (∃ t, exec .fin { mid .fin 3 0 with rX0 := 1 } = .next t) ∧ { mid .fin 3 0 with rX0 := 1 }.rN = ktoy.k1 ∧
    (∃ t, exec .fin { mid .fin 4 0 with rX0 := 3 } = .next t) ∧ { mid .fin 4 0 with rX0 := 3 }.rX0 = ktoy.k1 ∧
    (∃ t, exec .fin (mid .fin 2 0) = .next t) ∧ ktoy.k1 ^^^ (mid .fin 2 0).rN = 1 :=
  ⟨next_of (by decide), by decide, next_of (by decide), by decide, next_of (by decide), by decide⟩

/-- The boundary values of the clauses: a value below `2^32`, equal halves, and each worked value. -/
theorem witness_Fold32SubtractsTheHighHalf :
    (0xFFFFFFFF : Word).toNat < 2 ^ 32 ∧
    (0x0000000500000005 : Word).toNat % 2 ^ 32 = (0x0000000500000005 : Word).toNat / 2 ^ 32 ∧
    goesOn (exec .fold32 { mid .fold32 0 0 with rR := 0xFFFFFFFF00000000 }) = true := by decide

theorem witness_OnlyTheListedOperationsWrite :
    (∃ t, exec .b32 (mid .b32 33 33) = .next t) ∧ (∃ t, exec (.mix 7 9) idle = .next t) ∧
      (∃ t, exec .ret (mid .ret 0 0) = .next t) ∧ (∃ t, exec .hash32 topByte = .next t) :=
  ⟨next_of (by decide), next_of (by decide), next_of (by decide), next_of (by decide)⟩

theorem witness_BlockNeverWritesMemory :
    (∃ t, exec .tail (mid .tail 17 1) = .next t) ∧
      (∃ t, step { idle with turns := [.host (.store 5 7)] } = .next t) ∧ ∃ t, step (mid .b32 33 33) = .next t :=
  ⟨next_of (by decide), next_of (by decide), next_of (by decide)⟩

theorem witness_ConstantTableNeverChanges :
    (∃ t, step { idle with turns := [.reset] } = .next t) ∧ ∃ t, step (mid .fin 0 0) = .next t :=
  ⟨next_of (by decide), next_of (by decide)⟩

/-- The invariant holds of a running block at each µop, at the boundary values of its counters. -/
theorem mid_inv {u : Upc} {n i : Nat} (hu : u ≠ .idle) (hn : n ≤ 40) (hi : i ≤ n) (hs : StageOk (mid u n i)) :
    Inv (mid u n i) := by
  have hb : (mid u n i).windowBase = 0x1000 := by
    have h1 : BitVec.ofNat 64 (0x1000 + n - i) + BitVec.ofNat 64 i = 0x1000 + BitVec.ofNat 64 n := by
      apply BitVec.eq_of_toNat_eq; simp; omega
    show BitVec.ofNat 64 (0x1000 + n - i) + BitVec.ofNat 64 i - BitVec.ofNat 64 n = 0x1000
    rw [h1, BitVec.add_sub_cancel]
  have hN : (mid u n i).rN.toNat = n := by show (BitVec.ofNat 64 n).toNat = n; simp; omega
  have hI : (mid u n i).rI.toNat = i := by show (BitVec.ofNat 64 i).toNat = i; simp; omega
  have hm : (mid u n i).mem = memOf 0x1000 (List.replicate 40 0) := rfl
  refine ⟨by rw [hm]; decide, by simp [mid, running, idle, ktoy, oddWord], by simp [mid, running, idle, State.reset], ⟨fun _ => hu, fun _ => rfl⟩,
    fun _ => ⟨⟨?_, fun a h1 h2 => ?_⟩, ?_⟩, fun _ => hs⟩
  · rw [hb, hN]; simp; omega
  · rw [hb] at h1 h2
    rw [hN] at h2
    have hc : (memOf 0x1000 (List.replicate 40 0)).covers 0x1000 0x1028 = true := by decide
    rw [hm]
    simp at h1 h2
    exact Memory.isSome_of_covers hc h1 (by omega)
  · rw [hI, hN]; exact hi

theorem witness_StepKeepsTheInvariant :
    ((Inv (mid .salt 16 16) ∧ Inv (mid .pack 16 16) ∧ Inv (mid .binit 17 17) ∧ Inv (mid .b32 33 33) ∧
      Inv (mid .bjoin 33 1) ∧ Inv (mid .bjoin 33 32) ∧ Inv (mid .b16 17 17) ∧ Inv (mid .b16 32 32) ∧
      Inv (mid .tail 17 1) ∧ Inv (mid .tail 17 16) ∧ Inv (mid .fin 0 0) ∧ Inv (mid .ret 0 0))) ∧
    (∃ t, step (mid .salt 16 16) = .next t) ∧ (∃ t, step (mid .b32 33 33) = .next t) ∧
    (∃ t, step (mid .tail 17 1) = .next t) := by
  refine ⟨⟨?_, ?_, ?_, ?_, ?_, ?_, ?_, ?_, ?_, ?_, ?_, ?_⟩, next_of (by decide), next_of (by decide), next_of (by decide)⟩ <;>
    exact mid_inv (by decide) (by decide) (by decide) (by simp [StageOk, mid, running, idle, State.reset])

theorem witness_ReadsStayInsideTheWindow :
    ReadsSafe (mid .b32 33 33) ∧ ∃ t, step (mid .b32 33 33) = .next t := by
  exact ⟨⟨mid_inv (by decide) (by decide) (by decide) (by simp [StageOk, mid, running, idle, State.reset]),
    fun _ _ _ h => by simp [mid, running, idle, State.reset] at h, fun _ _ h => by simp [mid, running, idle, State.reset] at h⟩, next_of (by decide)⟩

theorem witness_CoreNeverStops :
    Inv (mid .pack 16 16) ∧ (mid .pack 16 16).turns = [] ∧ Inv (mid .tail 17 1) ∧ (mid .tail 17 1).turns = [] :=
  ⟨mid_inv (by decide) (by decide) (by decide) (by simp [StageOk, mid, running, idle, State.reset]), rfl,
    mid_inv (by decide) (by decide) (by decide) (by simp [StageOk, mid, running, idle, State.reset]), rfl⟩

theorem witness_WindowStaysPut :
    Inv (mid .b32 33 33) ∧ (mid .b32 33 33).turns = [] ∧ (mid .b32 33 33).busy = true ∧
      ∃ t, step (mid .b32 33 33) = .next t :=
  ⟨mid_inv (by decide) (by decide) (by decide) (by simp [StageOk, mid, running, idle, State.reset]), rfl, rfl,
    next_of (by decide)⟩

theorem witness_StatusFollowsTheCommands :
    Inv (mid .fin 0 0) ∧ (∃ t, step (commanded 1) = .next t) ∧ (∃ t, step (mid .ret 0 0) = .next t) ∧
    (topByte.busy = false ∧ ∃ t, exec .hash64 topByte = .next t) ∧
    (∃ t, step { mid .fin 0 0 with turns := [.reset] } = .next t) ∧
    { idle with turns := [.host (.writeReg 1 3)] }.turns = [.host (.writeReg 1 3)] :=
  ⟨mid_inv (by decide) (by decide) (by decide) trivial, next_of (by decide), next_of (by decide),
    ⟨rfl, next_of (by decide)⟩, next_of (by decide), rfl⟩

/-- A command over a buffer at 0x1000 that is about to be written. -/
def launching (w : Word) (buf : List Byte) : State :=
  { commanded w with size := BitVec.ofNat 64 buf.length, data := 0x1000, mem := memOf 0x1000 buf }

/-- The hypotheses of the statements about whole commands, on an empty buffer, the largest short one and the smallest bulk one. -/
theorem launching_ok :
    ∀ buf ∈ [[], exampleBuf, exampleBuf ++ [0xB0]], ∀ w : Word, w = 1 ∨ w = 2 →
      (launching w buf).busy = false ∧ (launching w buf).mem.wf = true ∧
      (launching w buf).size.toNat = buf.length ∧ HoldsAt (launching w buf).mem (launching w buf).data buf ∧
      (launching w buf).turns = [.host (.writeReg 0 w)] := by
  intro buf hb w hw
  simp only [List.mem_cons, List.not_mem_nil, or_false] at hb
  rcases hb with rfl | rfl | rfl <;> rcases hw with rfl | rfl <;>
    exact ⟨rfl, by decide, by decide, holds_of (by decide) (by decide), rfl⟩

theorem witness_Hash64ComputesTheHash :
    (launching 1 exampleBuf).busy = false ∧ (launching 1 exampleBuf).mem.wf = true ∧
      (launching 1 exampleBuf).size.toNat = exampleBuf.length ∧
      HoldsAt (launching 1 exampleBuf).mem (launching 1 exampleBuf).data exampleBuf ∧
      (launching 1 exampleBuf).turns = [.host (.writeReg 0 1)] :=
  launching_ok exampleBuf (by simp) 1 (.inl rfl)

theorem witness_Hash32ComputesTheFoldedHash :
    (launching 2 []).busy = false ∧ (launching 2 []).mem.wf = true ∧
      (launching 2 []).size.toNat = ([] : List Byte).length ∧ HoldsAt (launching 2 []).mem (launching 2 []).data [] ∧
      (launching 2 []).turns = [.host (.writeReg 0 2)] :=
  launching_ok [] (by simp) 2 (.inr rfl)

theorem witness_CommandIssuesItsAccessList :
    (launching 2 (exampleBuf ++ [0xB0])).busy = false ∧ (launching 2 (exampleBuf ++ [0xB0])).mem.wf = true ∧
      (launching 2 (exampleBuf ++ [0xB0])).size.toNat = (exampleBuf ++ [0xB0]).length ∧
      HoldsAt (launching 2 (exampleBuf ++ [0xB0])).mem (launching 2 (exampleBuf ++ [0xB0])).data (exampleBuf ++ [0xB0]) ∧
      (launching 2 (exampleBuf ++ [0xB0])).turns = [.host (.writeReg 0 2)] :=
  launching_ok (exampleBuf ++ [0xB0]) (by simp) 2 (.inr rfl)

/-- Two blocks that differ in the place of the buffer and in a working register; both commands run to their end. -/
theorem witness_ResultDependsOnTheOperandsAlone :
    HoldsAt (launching 1 [0xA0]).mem (launching 1 [0xA0]).data [0xA0] ∧
      HoldsAt { launching 1 [0xA0] with data := 0x2000, mem := [(0x2000, 0xA0)], rX0 := 9 }.mem 0x2000 [0xA0] ∧
      (∃ t, Sys2Proof.core.run (1 + uopCount 1 0) (launching 1 [0xA0]) = .next t) ∧
      ∃ t, Sys2Proof.core.run (1 + uopCount 1 0)
        { launching 1 [0xA0] with data := 0x2000, mem := [(0x2000, 0xA0)], rX0 := 9 } = .next t :=
  ⟨holds_of (by decide) (by decide), holds_of (by decide) (by decide),
    next_of (o := Sys2Proof.core.run (1 + uopCount 1 0) (launching 1 [0xA0])) (by decide),
    next_of (o := Sys2Proof.core.run (1 + uopCount 1 0)
      { launching 1 [0xA0] with data := 0x2000, mem := [(0x2000, 0xA0)], rX0 := 9 }) (by decide)⟩

theorem witness_Hash32IsTheFoldOfHash64 :
    HoldsAt (launching 1 []).mem (launching 1 []).data [] ∧
      (∃ t, Sys2Proof.core.run (1 + uopCount 0 0) { launching 1 [] with turns := [.host (.writeReg 0 1)] } = .next t) ∧
      ∃ t, Sys2Proof.core.run (1 + uopCount 0 1) { launching 1 [] with turns := [.host (.writeReg 0 2)] } = .next t :=
  ⟨holds_of (by decide) (by decide),
    next_of (o := Sys2Proof.core.run (1 + uopCount 0 0) { launching 1 [] with turns := [.host (.writeReg 0 1)] }) (by decide),
    next_of (o := Sys2Proof.core.run (1 + uopCount 0 1) { launching 1 [] with turns := [.host (.writeReg 0 2)] }) (by decide)⟩

theorem witness_OperandWritesCommuteWithTheCore :
    (mid .b32 33 33).turns = [] ∧ ∃ t, step (mid .b32 33 33) = .next t := ⟨rfl, next_of (by decide)⟩

theorem witness_RegisterReadsReturnTheRegister :
    (∀ r ∈ [1, 2, 3, 4, 5], { idle with done := true, turns := [.host (.readReg r)] }.turns = [.host (.readReg r)]) ∧
      { idle with done := true, turns := [.host (.readReg 5)] }.done = true := by decide

/-- The first and the last register, at the smallest and at the largest stride that keeps them apart, and a wrapping base. -/
theorem witness_BusAccessReachesTheNumberedRegister :
    ∀ n ∈ [0, 5], ∀ m ∈ [(⟨0x4000, 8⟩ : RegMap), ⟨0xFFFFFFFFFFFFFFFC, 8⟩, ⟨0, 0x3333333333333331⟩],
      n ≤ 5 ∧ 8 ≤ m.stride.toNat ∧ 5 * m.stride.toNat + 8 ≤ 2 ^ 64 ∧
      { onBus (.busWrite (m.base + BitVec.ofNat 64 n * m.stride) .w8 1) with bus := m }.turns =
        [.host (.busWrite (m.base + BitVec.ofNat 64 n * m.stride) .w8 1)] ∧
      { onBus (.busRead (m.base + BitVec.ofNat 64 n * m.stride) .w8) with bus := m }.turns =
        [.host (.busRead (m.base + BitVec.ofNat 64 n * m.stride) .w8)] := by decide

/-- Narrower than register 0; astride registers 0 and 1; the last byte of register 5; the bytes before and after the block. -/
theorem witness_BusAccessElsewhereReachesNoRegister :
    ((0x4000 : Word) + BitVec.ofNat 64 0 = 0x4000 + BitVec.ofNat 64 0 * 8 + BitVec.ofNat 64 0 ∧
      ¬ ((0x4000 : Word) = 0x4000 + BitVec.ofNat 64 0 * 8 ∧ ReadWidth.w4 = .w8)) ∧
    ((0x4004 : Word) + BitVec.ofNat 64 7 = 0x4000 + BitVec.ofNat 64 1 * 8 + BitVec.ofNat 64 3 ∧
      ¬ ((0x4004 : Word) = 0x4000 + BitVec.ofNat 64 1 * 8 ∧ ReadWidth.w8 = .w8)) ∧
    ((0x402F : Word) + BitVec.ofNat 64 0 = 0x4000 + BitVec.ofNat 64 5 * 8 + BitVec.ofNat 64 7 ∧
      ¬ ((0x402F : Word) = 0x4000 + BitVec.ofNat 64 5 * 8 ∧ ReadWidth.w1 = .w8)) ∧
    (∀ x ∈ [(0x3FF8 : Word), 0x4030], ∀ n i j, n ≤ 5 → i < ReadWidth.bytes .w8 → j < 8 →
      x + BitVec.ofNat 64 i ≠ 0x4000 + BitVec.ofNat 64 n * 8 + BitVec.ofNat 64 j) ∧
    (onBus (.busWrite 0x4030 .w8 1)).turns = [.host (.busWrite 0x4030 .w8 1)] ∧
    (onBus (.busRead 0x4004 .w8)).turns = [.host (.busRead 0x4004 .w8)] ∧ (onBus (.busRead 0x4004 .w8)).bus = ⟨0x4000, 8⟩ :=
  ⟨by decide, by decide, by decide, by
    intro x hx n i j hn hi hj h
    have h := congrArg BitVec.toNat h
    simp only [List.mem_cons, List.not_mem_nil, or_false, ReadWidth.bytes] at hx hi
    rcases hx with rfl | rfl <;>
      simp only [BitVec.toNat_add, BitVec.toNat_mul, BitVec.toNat_ofNat, BitVec.reduceToNat] at h <;> omega,
    rfl, rfl, rfl⟩

theorem witness_UnspecifiedReadsReturnSomeValue :
    ∀ r ∈ [0, 5, 6], { idle with turns := [.host (.readReg r)] }.turns = [.host (.readReg r)] ∧
      (r = 0 ∨ r ≥ 6 ∨ r = 5 ∧ idle.done = false) := by decide

theorem witness_RegisterWritesReplaceOrAreIgnored :
    (∀ r ∈ [1, 2, 3, 4, 5, 6], { idle with turns := [.host (.writeReg r 9)] }.turns = [.host (.writeReg r 9)]) ∧
      { idle with turns := [.host (.partialReg 2)] }.turns = [.host (.partialReg 2)] := by decide

theorem witness_ResetLeavesTheStatedValues :
    { mid .b32 33 33 with turns := [.reset] }.turns = [.reset] := rfl

theorem witness_ResetAbandonsTheCommand :
    { mid .tail 17 1 with turns := [.reset] }.turns = [.reset] := rfl

/-- Idle; busy and one byte past the window; busy and the same byte; busy and another byte. -/
theorem witness_HostStorePutsOneByte :
    idle.busy = false ∧ (mid .tail 17 1).inWindow 0x1011 = false ∧
    ((mid .tail 17 1).inWindow 0x1010 = true ∧ (mid .tail 17 1).mem.byteAt (0x1010 : Word).toNat = some 0) ∧
    ((mid .tail 17 1).busy = true ∧ (mid .tail 17 1).mem.byteAt (0x1010 : Word).toNat ≠ some 1) ∧
    { idle with turns := [.host (.store 5 7)] }.turns = [.host (.store 5 7)] := by decide

theorem witness_UnreachableCodesAreRefused :
    ((mid .pack 17 17).turns = [] ∧ (mid .pack 17 17).upc = .pack ∧ 16 < (mid .pack 17 17).rN.toNat) ∧
    { idle with turns := [.prim 0b110 0 0] }.turns = [.prim 0b110 0 0] := by decide

end Sys2Proof.Tests
end

