-- ==== Sys2Proof/Proofs/BusAccess.lean ====
section
/-! SUPPORT. The platform's bus: how far apart the registers sit, which register a 64-bit access at a register's own
address names, and that the access steps as the one by number (00_scope.md R5, 10_state.md R22; log 20). -/

namespace Sys2Proof.Machine

/-- The six registers lie apart: none reaches into the next, and the last does not come round to the first. -/
structure RegMap.Apart (m : RegMap) : Prop where
  stride_ge : 8 ≤ m.stride.toNat
  fits : 5 * m.stride.toNat + 8 ≤ 2 ^ 64

/-! ### The registers' places -/

/-- Upwards, the distance of two registers is a multiple of the stride, wherever the block starts. -/
theorem RegMap.addr_sub_addr (m : RegMap) {i j : Nat} (h : i ≤ j) :
    m.addr j - m.addr i = BitVec.ofNat 64 (j - i) * m.stride := by
  obtain ⟨d, rfl⟩ := Nat.exists_eq_add_of_le h
  simp only [RegMap.addr, Nat.add_sub_cancel_left, BitVec.ofNat_add]
  ring

/-- Upwards, a register starts at least 8 bytes past a lower one, and ends early enough not to come round to it. -/
theorem RegMap.Apart.toNat_addr_sub_addr_bounds {m : RegMap} (ha : m.Apart) {i j : Nat} (hij : i < j) (hj : j ≤ 5) :
    8 ≤ (m.addr j - m.addr i).toNat ∧ (m.addr j - m.addr i).toNat + 8 ≤ 2 ^ 64 := by
  have hstride := ha.stride_ge
  have hfits := ha.fits
  have hlow : m.stride.toNat ≤ (j - i) * m.stride.toNat := Nat.le_mul_of_pos_left _ (by omega)
  have hhigh : (j - i) * m.stride.toNat ≤ 5 * m.stride.toNat := Nat.mul_le_mul_right _ (by omega)
  have hdist : (m.addr j - m.addr i).toNat = (j - i) * m.stride.toNat := by
    rw [m.addr_sub_addr hij.le, BitVec.toNat_mul, BitVec.toNat_ofNat, Nat.mod_eq_of_lt (a := j - i) (by omega),
      Nat.mod_eq_of_lt (by omega)]
  omega

/-- No register starts within the 8 bytes of another, whichever of the two is the lower. -/
theorem RegMap.Apart.eight_le_addr_sub_addr {m : RegMap} (ha : m.Apart) {i j : Nat} (hij : i ≠ j) (hi : i ≤ 5)
    (hj : j ≤ 5) : 8 ≤ (m.addr j - m.addr i).toNat := by
  rcases Nat.lt_or_gt_of_ne hij with h | h
  · exact (ha.toNat_addr_sub_addr_bounds h hj).1
  · obtain ⟨hlow, hhigh⟩ := ha.toNat_addr_sub_addr_bounds h hi
    rw [← neg_sub, BitVec.toNat_neg, Nat.mod_eq_of_lt (by omega)]
    omega

/-! ### The register that an access names -/

/-- A 64-bit access misses register `j` where each of the two starts 8 bytes or more past the other. -/
theorem RegMap.touches_w8_eq_false {m : RegMap} {x : Word} {j : Nat} (h₁ : 8 ≤ (x - m.addr j).toNat)
    (h₂ : 8 ≤ (m.addr j - x).toNat) : m.touches x .w8 j = false := by
  rw [RegMap.touches, Bool.or_eq_false_iff, decide_eq_false_iff_not, decide_eq_false_iff_not]
  exact ⟨h₁.not_gt, h₂.not_gt⟩

/-- A 64-bit access at the address of register `n` meets register `n` and no other. -/
theorem RegMap.Apart.touches_addr {m : RegMap} (ha : m.Apart) {n j : Nat} (hn : n ≤ 5) (hj : j ≤ 5) :
    m.touches (m.addr n) .w8 j = (j == n) := by
  rcases eq_or_ne j n with rfl | h
  · simp [RegMap.touches]
  · rw [beq_eq_false_iff_ne.2 h]
    exact RegMap.touches_w8_eq_false (ha.eight_le_addr_sub_addr h hj hn) (ha.eight_le_addr_sub_addr h.symm hn hj)

/-- A 64-bit access at the address of register `n` names register `n`. -/
theorem RegMap.Apart.number_addr {m : RegMap} (ha : m.Apart) {n : Nat} (hn : n ≤ 5) :
    m.number (m.addr n) .w8 = some n := by
  have honly : (List.range 6).filter (m.touches (m.addr n) .w8) = [n] := by
    calc (List.range 6).filter (m.touches (m.addr n) .w8)
        = (List.range 6).filter (· == n) :=
          List.filter_congr fun j hj => ha.touches_addr hn (by have := List.mem_range.1 hj; omega)
      _ = [n] := by interval_cases n <;> rfl
  simp [RegMap.number, honly]

/-! ### The turn -/

/-- A bus write that names register `n` is the write to number `n`. -/
theorem hostTurn_busWrite {s : State} {x : Word} {width : ReadWidth} {n : Nat} (h : s.bus.number x width = some n)
    (w : Word) : hostTurn (.busWrite x width w) s = hostTurn (.writeReg n w) s := by
  simp [hostTurn, h]

/-- A bus read that names register `n` is the read of number `n`. -/
theorem hostTurn_busRead {s : State} {x : Word} {width : ReadWidth} {n : Nat} (h : s.bus.number x width = some n) :
    hostTurn (.busRead x width) s = hostTurn (.readReg n) s := by
  simp [hostTurn, h]

/-- Two host actions that do the same once the turn is taken make the same step: a host's turn does not see the action
it took from the queue. -/
theorem step_host_congr {s : State} {a b : HostAction} {rest : List Turn} (hs : s.turns = .host a :: rest)
    (h : hostTurn a s.takeTurn = hostTurn b s.takeTurn) : step s = step { s with turns := .host b :: rest } := by
  have htake : ({ s with turns := .host b :: rest } : State).takeTurn = s.takeTurn := by
    simp [State.takeTurn, hs]
  rw [step_host hs, step_host rfl, htake, h]

end Sys2Proof.Machine

namespace Sys2Proof.Proofs

open Sys2Proof Sys2Proof.Machine

/-- Settles O52: the access at register `n`'s own address names register `n` and no other, since the registers lie apart. -/
theorem busAccessReachesTheNumberedRegister : Obligations.BusAccessReachesTheNumberedRegister := by
  intro s n rest hn hstride hfits
  have hnumber : s.takeTurn.bus.number (s.bus.addr n) .w8 = some n := RegMap.Apart.number_addr ⟨hstride, hfits⟩ hn
  exact ⟨fun w hs => step_host_congr hs (hostTurn_busWrite hnumber w),
    fun hs => step_host_congr hs (hostTurn_busRead hnumber)⟩

end Sys2Proof.Proofs
end

/-! SUPPORT. What one step can do to a running command, and why it keeps the invariant (10_state.md R24, 43_bulk_folder.md
R170 to R176, 45_commands.md R205); the host's accesses by register number and by bus address (10_state.md R22, R42). -/

namespace Sys2Proof.Machine

/-! ### Which operation the core runs -/

/-- The value of `UPC` at which the core runs an operation: `PACK` for every layout, none for a command or a primitive
(30_encoding.md R92, R93). -/
def uopOf : Instr → Option Upc
  | .salt => some .salt
  | .pack0 | .pack1 | .pack2 | .pack3 | .pack4 | .pack5 | .pack6 | .pack7 | .pack8 | .pack9 | .pack10 | .pack11
  | .pack12 | .pack13 | .pack14 | .pack15 | .pack16 => some .pack
  | .binit => some .binit
  | .b32 => some .b32
  | .bjoin => some .bjoin
  | .b16 => some .b16
  | .tail => some .tail
  | .fin => some .fin
  | .fold32 => some .fold32
  | .ret => some .ret
  | .hash64 | .hash32 | .rd1 _ | .rd2 _ | .rd4 _ | .rd8 _ | .mum _ _ | .mix _ _ => none

variable {s t : State} {i : Instr}

/-- No operation is the core's at `IDLE` (30_encoding.md R96). -/
theorem uopOf_ne_idle (i : Instr) : uopOf i ≠ some .idle := by
  cases i <;> nofun

/-- A size selects layouts only. -/
theorem uopOf_decodeSize {n : Word} (h : decodeSize n = .ok i) : uopOf i = some .pack := by
  unfold decodeSize at h
  split at h <;> cases h <;> rfl

/-- The core decodes only operations of the µop that `UPC` names. -/
theorem uopOf_decode_coreEncoding {u : Upc} {n : Word} (h : decode (coreEncoding u n) = .ok i) :
    uopOf i = some u := by
  cases u with
  | pack => exact uopOf_decodeSize h
  | idle => cases h
  | salt | binit | b32 | bjoin | b16 | tail | fin | fold32 | ret => cases h; rfl

/-- The core's turn leaves the block as it is, or runs an operation of the µop that `UPC` names. -/
theorem coreTurn_next (h : coreTurn s = .next t) : t = s ∨ ∃ i, uopOf i = some s.upc ∧ exec i s = .next t := by
  unfold coreTurn at h
  split at h
  · rename_i i hd
    exact .inr ⟨i, uopOf_decode_coreEncoding hd, h⟩
  · exact .inl (Host.Outcome.next.inj h).symm
  · cases h

/-- The command words are 1 and 2 (30_encoding.md R91). -/
theorem decodeCmd_ok {w : Word} (h : decodeCmd w = .ok i) : (w = 1 ∧ i = .hash64) ∨ (w = 2 ∧ i = .hash32) := by
  unfold decodeCmd at h
  split at h
  · cases h
  · rename_i hrsv
    have hhigh : w.toNat / 2 ^ 8 % 2 ^ 56 = 0 := by
      simpa [cmdRsv, Nat.shiftRight_eq_div_pow] using congrArg BitVec.toNat (not_not.1 hrsv)
    have hword (c : Word) (hc : c.toNat < 2 ^ 8) (hopc : cmdOpc w = c.truncate 8) : w = c := by
      have hlow : w.toNat % 2 ^ 8 = c.toNat % 2 ^ 8 := by simpa [cmdOpc] using congrArg BitVec.toNat hopc
      apply BitVec.eq_of_toNat_eq
      omega
    split at h
    · cases h
      exact .inl ⟨hword 1 (by decide) ‹_›, rfl⟩
    · split at h
      · cases h
        exact .inr ⟨hword 2 (by decide) ‹_›, rfl⟩
      · cases h

/-- Every layout is the common one with terms of its own. -/
theorem exec_layout_eq (hi : uopOf i = some .pack) : ∃ l0 l1, exec i s = packWith l0 l1 s := by
  cases i with
  | pack0 | pack1 | pack2 | pack3 | pack4 | pack5 | pack6 | pack7 | pack8 | pack9 | pack10 | pack11 | pack12 | pack13
  | pack14 | pack15 | pack16 => rw [exec]; exact ⟨_, _, rfl⟩
  | _ => cases hi

/-- A layout fills the lanes, issues its reads and goes to FIN. -/
theorem exec_layout_next (hi : uopOf i = some .pack) (h : exec i s = .next t) :
    ∃ x0 x1 l, t = ((s.setLanes x0 x1).logReads l).goto .fin := by
  obtain ⟨l0, l1, hpack⟩ := exec_layout_eq hi
  obtain ⟨x0, x1, -, -, ht⟩ := packWith_next (hpack ▸ h)
  exact ⟨x0, x1, _, ht⟩

/-- What a request on the test port can do: nothing but to the model's own `ret` and `reads` and to the product pair. -/
theorem primTurn_next {u : BitVec 3} {a b : Word} (h : primTurn u a b s = .next t) :
    ∃ ma mb v l, t = { s with rMA := ma, rMB := mb, ret := v, reads := l } := by
  have hread {w : ReadWidth} {a : Word} (h : reader w a s = .next t) :
      ∃ ma mb v l, t = { s with rMA := ma, rMB := mb, ret := v, reads := l } := by
    obtain ⟨v, -, rfl⟩ := reader_next h
    exact ⟨_, _, _, _, rfl⟩
  simp only [primTurn, decode] at h
  unfold decodePrim at h
  split at h
  · rename_i i hi
    split at hi <;> cases hi
    · exact hread h
    · exact hread h
    · exact hread h
    · exact hread h
    · exact ⟨_, _, _, _, (Host.Outcome.next.inj h).symm⟩
    · exact ⟨_, _, _, _, (Host.Outcome.next.inj h).symm⟩
  · cases h

/-! ### What a step leaves of the running command -/

/-- The state with everything blanked that an access from outside may write while a command runs: the operand registers,
the product pair and the model's own fields. -/
def State.commandPart (s : State) : State :=
  { s with
    size := 0, data := 0, seed := 0, rMA := 0, rMB := 0
    turns := [], hostRead := 0, ret := 0, reads := [], freeIdx := 0 }

theorem State.takeTurn_of_noTurns (h : s.turns = []) : s.takeTurn = s := by
  rw [State.takeTurn, h, List.tail_nil, ← h]

theorem State.takeTurn_of_turns {x : Turn} {rest : List Turn} (h : s.turns = x :: rest) :
    s.takeTurn = { s with turns := rest } := by
  simp [State.takeTurn, h]

@[simp] theorem State.commandPart_takeTurn : s.takeTurn.commandPart = s.commandPart := rfl

@[simp] theorem writeRegister_commandPart (reg : Nat) (w : Word) (s : State) :
    (writeRegister reg w s).commandPart = s.commandPart := by
  rcases writeRegister_cases reg w s with ⟨-, h⟩ | ⟨-, h⟩ | ⟨-, h⟩ | ⟨-, -, -, h⟩ <;> rw [h] <;> rfl

@[simp] theorem readRegister_commandPart (reg : Nat) (s : State) :
    (readRegister reg s).commandPart = s.commandPart := by
  obtain ⟨v, j, h⟩ := readRegister_cases reg s
  rw [h]
  rfl

/-- A command word given to the block launches an idle one whose window passes the checks, and else does nothing. -/
theorem exec_decodeCmd_next {w : Word} (hd : decode (.cmd w) = .ok i) (h : exec i s = .next t) :
    (s.busy = true ∧ t = s) ∨
    ((w = 1 ∨ w = 2) ∧ s.busy = false ∧ Readable s.mem s.data s.size ∧
      ∃ o, t = ((s.latch o).flagsLaunch).goto .salt) := by
  have hlaunch : (w = 1 ∨ w = 2) ∧ ∃ o, launch o s = .next t := by
    rcases decodeCmd_ok hd with ⟨hw, rfl⟩ | ⟨hw, rfl⟩
    · exact ⟨.inl hw, 0, h⟩
    · exact ⟨.inr hw, 1, h⟩
  obtain ⟨hw, o, ho⟩ := hlaunch
  rcases launch_next ho with hbusy | ⟨hidle, hwrap, hcovers, ht⟩
  · exact .inl hbusy
  · exact .inr ⟨hw, hidle, ⟨hwrap, fun _ h1 h2 => Memory.isSome_of_covers hcovers h1 h2⟩, o, ht⟩

/-- A step leaves the command and the memory alone, runs the µop that `UPC` names, launches an idle block, stores a byte
of the host's, or resets. -/
theorem step_next (h : step s = .next t) :
    t.commandPart = s.commandPart ∨
    (∃ i, uopOf i = some s.upc ∧ exec i s.takeTurn = .next t) ∨
    ((∃ a rest w, s.turns = .host a :: rest ∧ a.written s.bus = some (0, w) ∧ (w = 1 ∨ w = 2)) ∧ s.busy = false ∧
      Readable s.mem s.data s.size ∧ ∃ o, t = ((s.takeTurn.latch o).flagsLaunch).goto .salt) ∨
    (∃ (a : Word) (b : Byte), t = s.takeTurn.setMem (s.mem.store a.toNat b)) ∨
    (∃ rest, s.turns = .reset :: rest ∧ t = s.takeTurn.blockReset) := by
  have core (h : coreTurn s.takeTurn = .next t) :
      t.commandPart = s.commandPart ∨ ∃ i, uopOf i = some s.upc ∧ exec i s.takeTurn = .next t := by
    rcases coreTurn_next h with rfl | hrun
    · exact .inl rfl
    · exact .inr hrun
  rcases step_cases h with ⟨hs, h⟩ | ⟨rest, -, h⟩ | ⟨a, rest, hs, h⟩ | hreset | ⟨u, a, b, rest, -, h⟩
  · rw [← State.takeTurn_of_noTurns hs] at h
    exact (core h).imp_right .inl
  · exact (core h).imp_right .inl
  · rcases hostTurn_cases h with ⟨w, i, ha, hd, he⟩ | ⟨w, r, -, -, rfl⟩ | ⟨n, w, -, -, rfl⟩ | ⟨n, rfl⟩ | ⟨x, b, -, h⟩
    · rcases exec_decodeCmd_next hd he with ⟨-, rfl⟩ | ⟨hw, hlaunched⟩
      · exact .inl rfl
      · exact .inr (.inr (.inl ⟨⟨a, rest, w, hs, ha, hw⟩, hlaunched⟩))
    · exact .inl rfl
    · exact .inl (writeRegister_commandPart ..)
    · exact .inl (readRegister_commandPart ..)
    · exact .inr (.inr (.inr (.inl ⟨x, b, (hostStore_next h).1⟩)))
  · exact .inr (.inr (.inr (.inr hreset)))
  · obtain ⟨ma, mb, v, l, rfl⟩ := primTurn_next h
    exact .inl rfl

/-! ### The invariant -/

/-- The invariant does not see what an access from outside may write. -/
theorem inv_commandPart : Inv s.commandPart ↔ Inv s :=
  ⟨fun h => ⟨h.memWf, h.kOdd, h.notBoth, h.busyIff, h.window, h.stage⟩,
    fun h => ⟨h.memWf, h.kOdd, h.notBoth, h.busyIff, h.window, h.stage⟩⟩

theorem Inv.of_commandPart_eq (hi : Inv s) (h : t.commandPart = s.commandPart) : Inv t :=
  inv_commandPart.1 (h ▸ inv_commandPart.2 hi)

theorem Inv.takeTurn (hi : Inv s) : Inv s.takeTurn :=
  hi.of_commandPart_eq rfl

/-- A state with the memory and constants of a good one, with `BUSY = 0` and `UPC` at `IDLE`, is good: nothing is asked of
the working registers of an idle block. -/
theorem Inv.of_idle (hi : Inv s) (hmem : t.mem = s.mem) (hk : t.k = s.k) (hbusy : t.busy = false)
    (hupc : t.upc = .idle) : Inv t where
  memWf := hmem ▸ hi.memWf
  kOdd := hk ▸ hi.kOdd
  notBoth := by simp [hbusy]
  busyIff := by simp [hbusy, hupc]
  window := by simp [hbusy]
  stage := by simp [hbusy]

/-! ### Launch and store -/

/-- At a launch the whole window is ahead of the cursor, so its base is `DATA`. -/
theorem Inv.launch (hi : Inv s) (hr : Readable s.mem s.data s.size) (o : BitVec 1) :
    Inv (((s.latch o).flagsLaunch).goto .salt) where
  memWf := hi.memWf
  kOdd := hi.kOdd
  notBoth := by simp
  busyIff := by simp
  window _ := by simpa [State.windowBase] using hr
  stage _ := by simp [StageOk]

/-- A store takes no readable byte away. -/
theorem Readable.store {m : Memory} {base n : Word} (h : Readable m base n) (a : Nat) (b : Byte) :
    Readable (m.store a b) base n := by
  refine ⟨h.1, fun x hlo hhi => ?_⟩
  rcases eq_or_ne x a with rfl | hx
  · simp [Memory.byteAt_store_same]
  · rw [Memory.byteAt_store_other m a b hx]
    exact h.2 x hlo hhi

theorem Inv.store (hi : Inv s) (a : Word) (b : Byte) : Inv (s.setMem (s.mem.store a.toNat b)) where
  memWf := Memory.wf_store hi.memWf a b
  kOdd := hi.kOdd
  notBoth := hi.notBoth
  busyIff := hi.busyIff
  window hb := ⟨(hi.window hb).1.store a.toNat b, (hi.window hb).2⟩
  stage := hi.stage

/-! ### The micro-operations -/

/-- `t` comes after `s` in one command: memory, constants, flags and the latched size are the same, and the window is, since
the cursor and the remaining count move against each other (43_bulk_folder.md R176). -/
structure ContinuesCommand (s t : State) : Prop where
  mem : t.mem = s.mem
  k : t.k = s.k
  busy : t.busy = s.busy
  done : t.done = s.done
  rN : t.rN = s.rN
  windowEnd : t.rP + t.rI = s.rP + s.rI
  count : t.rI.toNat ≤ s.rI.toNat

theorem ContinuesCommand.windowBase (h : ContinuesCommand s t) : t.windowBase = s.windowBase := by
  simp only [State.windowBase, h.windowEnd, h.rN]

/-- A µop that does not move the cursor continues the command. -/
theorem ContinuesCommand.of_cursor_eq (hmem : t.mem = s.mem) (hk : t.k = s.k) (hbusy : t.busy = s.busy)
    (hdone : t.done = s.done) (hN : t.rN = s.rN) (hP : t.rP = s.rP) (hI : t.rI = s.rI) : ContinuesCommand s t :=
  ⟨hmem, hk, hbusy, hdone, hN, by rw [hP, hI], hI ▸ le_rfl⟩

/-- A µop that folds a chunk of `d` bytes continues the command if that many are left. -/
theorem ContinuesCommand.of_advance {d : Word} (hmem : t.mem = s.mem) (hk : t.k = s.k) (hbusy : t.busy = s.busy)
    (hdone : t.done = s.done) (hN : t.rN = s.rN) (hP : t.rP = s.rP + d) (hI : t.rI = s.rI - d)
    (hd : d ≤ s.rI) : ContinuesCommand s t :=
  ⟨hmem, hk, hbusy, hdone, hN, by rw [hP, hI]; ring, by rw [hI, BitVec.toNat_sub_of_le hd]; exact Nat.sub_le ..⟩

/-- A running command that goes on to a µop whose counters are right keeps the invariant. -/
theorem Inv.of_continues (hi : Inv s) (hs : s.upc ≠ .idle) (h : ContinuesCommand s t) (ht : t.upc ≠ .idle)
    (hstage : StageOk t) : Inv t where
  memWf := h.mem ▸ hi.memWf
  kOdd := h.k ▸ hi.kOdd
  notBoth := by rw [h.busy, h.done]; exact hi.notBoth
  busyIff := by simp [h.busy, hi.busyIff.2 hs, ht]
  window _ := by
    obtain ⟨hread, hcount⟩ := hi.window (hi.busyIff.2 hs)
    rw [h.mem, h.windowBase, h.rN]
    exact ⟨hread, h.count.trans hcount⟩
  stage _ := hstage

/-! ### The successors' counters (45_commands.md R205) -/

/-- The next µop is one, and its counters are right. -/
def NextOk (t : State) : Prop := t.upc ≠ .idle ∧ StageOk t

theorem nextOk_afterSalt (hu : t.upc = afterSalt t.rN) (hI : t.rI = t.rN) : NextOk t := by
  unfold afterSalt at hu
  split at hu <;> simp only [NextOk, StageOk, hu]
  · exact ⟨nofun, hI, ‹_›⟩
  · exact ⟨nofun, hI, by omega⟩

theorem nextOk_afterBinit (hu : t.upc = afterBinit t.rI) (hI : t.rI = t.rN) (hN : 16 < t.rN.toNat) : NextOk t := by
  unfold afterBinit at hu
  have hI16 : 16 < t.rI.toNat := hI ▸ hN
  rw [if_pos hI16] at hu
  split at hu <;> simp only [NextOk, StageOk, hu]
  · exact ⟨nofun, hN, ‹_›⟩
  · exact ⟨nofun, hN, hI16, by omega⟩

theorem nextOk_afterB32 (hu : t.upc = afterB32 t.rI) (hN : 16 < t.rN.toNat) (hI : 1 ≤ t.rI.toNat) : NextOk t := by
  unfold afterB32 at hu
  split at hu <;> simp only [NextOk, StageOk, hu]
  · exact ⟨nofun, hN, ‹_›⟩
  · exact ⟨nofun, hN, hI, by omega⟩

theorem nextOk_afterBjoin (hu : t.upc = afterBjoin t.rI) (hN : 16 < t.rN.toNat) (hI : 1 ≤ t.rI.toNat)
    (hI' : t.rI.toNat ≤ 32) : NextOk t := by
  unfold afterBjoin at hu
  split at hu <;> simp only [NextOk, StageOk, hu]
  · exact ⟨nofun, hN, ‹_›, hI'⟩
  · exact ⟨nofun, hN, hI, by omega⟩

/-- The 16-byte loop runs at most once: no more than 16 bytes are left after a chunk (43_bulk_folder.md R175). -/
theorem nextOk_afterB16 (hu : t.upc = afterB16 t.rI) (hN : 16 < t.rN.toNat) (hI : 1 ≤ t.rI.toNat)
    (hI' : t.rI.toNat ≤ 16) : NextOk t := by
  rw [afterB16, if_neg (by omega)] at hu
  simp only [NextOk, StageOk, hu]
  exact ⟨nofun, hN, hI, hI'⟩

theorem nextOk_afterFin (hu : t.upc = afterFin t.rOPL) : NextOk t := by
  unfold afterFin at hu
  split at hu <;> simp only [NextOk, StageOk, hu]
  · exact ⟨nofun, ‹_›⟩
  · exact ⟨nofun, fun h => absurd h ‹_›⟩

theorem nextOk_fin (hu : t.upc = .fin) : NextOk t := by
  simp [NextOk, StageOk, hu]

/-- A fold is a 32-bit value (44_finalizer.md R191). -/
theorem fold32Val_lt (r : Word) : (fold32Val r).toNat < 2 ^ 32 := by
  simp only [fold32Val, BitVec.truncate_eq_setWidth, BitVec.toNat_setWidth]
  omega

/-! ### The chunks -/

section
variable (v0 v1 v2 v3 : Word)

@[simp] theorem afterChunk32_rI : (afterChunk32 s v0 v1 v2 v3).rI = s.rI - 32 := by simp [afterChunk32]
@[simp] theorem afterChunk32_rN : (afterChunk32 s v0 v1 v2 v3).rN = s.rN := by simp [afterChunk32]
@[simp] theorem afterChunk32_upc : (afterChunk32 s v0 v1 v2 v3).upc = afterB32 (s.rI - 32) := by simp [afterChunk32]
@[simp] theorem afterChunk16_rI : (afterChunk16 s v0 v1).rI = s.rI - 16 := by simp [afterChunk16]
@[simp] theorem afterChunk16_rN : (afterChunk16 s v0 v1).rN = s.rN := by simp [afterChunk16]
@[simp] theorem afterChunk16_upc : (afterChunk16 s v0 v1).upc = afterB16 (s.rI - 16) := by simp [afterChunk16]

theorem afterChunk32_continues (h : 32#64 ≤ s.rI) : ContinuesCommand s (afterChunk32 s v0 v1 v2 v3) := by
  apply ContinuesCommand.of_advance (d := 32) <;> simp [afterChunk32, h]

/-- A 32-byte chunk is folded only while more than 32 bytes are left, so some stay for the tail. -/
theorem afterChunk32_nextOk (hN : 16 < s.rN.toNat) (hI : 32 < s.rI.toNat) : NextOk (afterChunk32 s v0 v1 v2 v3) := by
  have hleft : (s.rI - 32).toNat = s.rI.toNat - 32 := BitVec.toNat_sub_of_le hI.le
  refine nextOk_afterB32 (by simp) (by simpa using hN) ?_
  rw [afterChunk32_rI, hleft]
  omega

theorem afterChunk16_continues (h : 16#64 ≤ s.rI) : ContinuesCommand s (afterChunk16 s v0 v1) := by
  apply ContinuesCommand.of_advance (d := 16) <;> simp [afterChunk16, h]

/-- A 16-byte chunk is folded only while 17 to 32 bytes are left, so 1 to 16 stay for the tail. -/
theorem afterChunk16_nextOk (hN : 16 < s.rN.toNat) (hI : 16 < s.rI.toNat) (hI' : s.rI.toNat ≤ 32) :
    NextOk (afterChunk16 s v0 v1) := by
  have hleft : (s.rI - 16).toNat = s.rI.toNat - 16 := BitVec.toNat_sub_of_le hI.le
  refine nextOk_afterB16 (by simp) (by simpa using hN) ?_ ?_ <;> rw [afterChunk16_rI, hleft] <;> omega

end

/-! ### A micro-operation keeps the invariant -/

/-- The counters are right for the µop that `UPC` names. -/
theorem Inv.stageOk_goto {u : Upc} (hi : Inv s) (hu : some u = some s.upc) (hrun : u ≠ .idle) : StageOk (s.goto u) := by
  obtain rfl := Option.some.inj hu
  exact hi.stage (hi.busyIff.2 hrun)

/-- A µop that `UPC` names keeps the invariant: RET ends the command, every other one continues it. -/
theorem Inv.exec_uop (hi : Inv s) (hu : uopOf i = some s.upc) (h : exec i s = .next t) : Inv t := by
  have continues (hc : ContinuesCommand s t) (hn : NextOk t) : Inv t := by
    refine hi.of_continues (fun hidle => ?_) hc hn.1 hn.2
    exact uopOf_ne_idle i (hidle ▸ hu)
  cases i with
  | hash64 | hash32 | rd1 | rd2 | rd4 | rd8 | mum | mix => cases hu
  | salt =>
    have hI : s.rI = s.rN := hi.stageOk_goto hu nofun
    obtain rfl := Host.Outcome.next.inj h
    exact continues (.of_cursor_eq rfl rfl rfl rfl rfl rfl rfl) (nextOk_afterSalt rfl hI)
  | binit =>
    obtain ⟨hI, hN⟩ : s.rI = s.rN ∧ 16 < s.rN.toNat := hi.stageOk_goto hu nofun
    obtain rfl := Host.Outcome.next.inj h
    exact continues (.of_cursor_eq rfl rfl rfl rfl rfl rfl rfl) (nextOk_afterBinit rfl hI hN)
  | b32 =>
    obtain ⟨hN, hI⟩ : 16 < s.rN.toNat ∧ 32 < s.rI.toNat := hi.stageOk_goto hu nofun
    obtain ⟨v0, v1, v2, v3, -, -, -, -, rfl⟩ := execB32_next h
    exact continues (afterChunk32_continues _ _ _ _ hI.le) (afterChunk32_nextOk _ _ _ _ hN hI)
  | bjoin =>
    obtain ⟨hN, hI, hI'⟩ : 16 < s.rN.toNat ∧ 1 ≤ s.rI.toNat ∧ s.rI.toNat ≤ 32 := hi.stageOk_goto hu nofun
    obtain rfl := Host.Outcome.next.inj h
    exact continues (.of_cursor_eq rfl rfl rfl rfl rfl rfl rfl) (nextOk_afterBjoin rfl hN hI hI')
  | b16 =>
    obtain ⟨hN, hI, hI'⟩ : 16 < s.rN.toNat ∧ 16 < s.rI.toNat ∧ s.rI.toNat ≤ 32 := hi.stageOk_goto hu nofun
    obtain ⟨v0, v1, -, -, rfl⟩ := execB16_next h
    exact continues (afterChunk16_continues _ _ hI.le) (afterChunk16_nextOk _ _ hN hI hI')
  | tail =>
    obtain ⟨v0, v1, -, -, rfl⟩ := execTail_next h
    exact continues (.of_cursor_eq rfl rfl rfl rfl rfl rfl rfl) (nextOk_fin rfl)
  | fin =>
    obtain rfl := Host.Outcome.next.inj h
    refine continues (.of_cursor_eq ?_ ?_ ?_ ?_ ?_ ?_ ?_) (nextOk_afterFin ?_) <;> simp
  | fold32 =>
    obtain rfl := Host.Outcome.next.inj h
    exact continues (.of_cursor_eq rfl rfl rfl rfl rfl rfl rfl) ⟨nofun, fun _ => fold32Val_lt _⟩
  | ret =>
    obtain rfl := Host.Outcome.next.inj h
    exact hi.of_idle rfl rfl rfl rfl
  | pack0 | pack1 | pack2 | pack3 | pack4 | pack5 | pack6 | pack7 | pack8 | pack9 | pack10 | pack11 | pack12 | pack13
  | pack14 | pack15 | pack16 =>
    obtain ⟨x0, x1, l, rfl⟩ := exec_layout_next rfl h
    exact continues (.of_cursor_eq rfl rfl rfl rfl rfl rfl rfl) (nextOk_fin rfl)

/-! ### Host accesses by register number -/

/-- A whole-register write to a number other than `CMD`'s. -/
theorem step_writeReg {n : Nat} {w : Word} {rest : List Turn} (h : s.turns = .host (.writeReg n w) :: rest) (hn : n ≠ 0) :
    step s = .next (writeRegister n w { s with turns := rest }) := by
  obtain ⟨m, rfl⟩ := Nat.exists_eq_succ_of_ne_zero hn
  rw [step_host h, State.takeTurn_of_turns h]
  rfl

/-- A whole-register read. -/
theorem step_readReg {n : Nat} {rest : List Turn} (h : s.turns = .host (.readReg n) :: rest) :
    step s = .next (readRegister n { s with turns := rest }) := by
  rw [step_host h, State.takeTurn_of_turns h]
  rfl

/-- `STATUS` and the numbers above 4 take no write (10_state.md R22, R24, R28). -/
theorem writeRegister_ignored {n : Nat} (hn : n = 1 ∨ 5 ≤ n) (w : Word) (s : State) : writeRegister n w s = s := by
  rcases writeRegister_cases n w s with ⟨h, -⟩ | ⟨h, -⟩ | ⟨h, -⟩ | ⟨-, -, -, h⟩
  · omega
  · omega
  · omega
  · exact h

/-- The reads whose value the spec calls unspecified (10_state.md R22, R23, R28). -/
theorem readRegister_unspecified {n : Nat} (h : n = 0 ∨ 6 ≤ n ∨ n = 5 ∧ s.done = false) :
    readRegister n s = readUnspecified s := by
  match n with
  | 0 => rfl
  | 5 => simp_all [readRegister]
  | n + 6 => rfl

/-- `STATUS` is the sum of its two bits (10_state.md R24). -/
theorem status_eq_add (s : State) : s.status = (if s.busy then 1 else 0) + (if s.done then 2 else 0) := by
  cases hb : s.busy <;> cases hd : s.done <;> simp [State.status, hb, hd]

theorem status_eq_zero (hb : s.busy = false) (hd : s.done = false) : s.status = 0 := by
  simp [State.status, hb, hd]

/-- While `BUSY = 1` a write to `CMD` does nothing, whatever the word (10_state.md R43). -/
theorem writeTurn_cmd_of_busy (hb : s.busy = true) (w : Word) : writeTurn 0 w s = .next s := by
  have hlaunch (o : BitVec 1) : launch o s = .next s := by simp [launch, hb]
  cases hd : decode (.cmd w) with
  | error r => simp [writeTurn, hd]
  | ok i =>
    rw [writeTurn, hd]
    rcases decodeCmd_ok hd with ⟨-, rfl⟩ | ⟨-, rfl⟩ <;> exact hlaunch _

/-! ### The bytes an access meets -/

/-- An access meets a register exactly where one of its bytes is one of the register's. -/
theorem RegMap.touches_iff {m : RegMap} {x : Word} {width : ReadWidth} {n : Nat} :
    m.touches x width n = true ↔
      ∃ i j, i < ReadWidth.bytes width ∧ j < 8 ∧ x + BitVec.ofNat 64 i = m.addr n + BitVec.ofNat 64 j := by
  have hwidth : ReadWidth.bytes width ≤ 8 ∧ 0 < ReadWidth.bytes width := by cases width <;> decide
  rw [RegMap.touches, Bool.or_eq_true, decide_eq_true_eq, decide_eq_true_eq]
  generalize m.addr n = y
  constructor
  · rintro (h | h)
    · exact ⟨0, (x - y).toNat, hwidth.2, h, by simp [-BitVec.toNat_sub]⟩
    · exact ⟨(y - x).toNat, 0, h, by decide, by simp [-BitVec.toNat_sub]⟩
  · rintro ⟨i, j, hi, hj, h⟩
    have := congrArg BitVec.toNat h
    have := x.isLt
    have := y.isLt
    simp only [BitVec.toNat_add, BitVec.toNat_sub, BitVec.toNat_ofNat] at *
    omega

/-- An access that meets a register without being that register whole names none. -/
theorem RegMap.number_eq_none {m : RegMap} {x : Word} {width : ReadWidth} {n : Nat} (hn : n < 6)
    (ht : m.touches x width n = true) (hwhole : ¬ (x = m.addr n ∧ width = .w8)) : m.number x width = none := by
  by_contra hsome
  obtain ⟨k, hk⟩ := Option.ne_none_iff_exists'.1 hsome
  rcases RegMap.number_eq_some hk with ⟨-, hx, hw, honly⟩ | ⟨-, hmiss⟩
  · exact hwhole ⟨honly n hn ht ▸ hx, hw⟩
  · exact absurd ht (by simp [hmiss n hn])

/-- An access that meets none of the six registers names a number that no register has. -/
theorem RegMap.number_eq_six {m : RegMap} {x : Word} {width : ReadWidth}
    (hmiss : ∀ n < 6, ¬ m.touches x width n = true) : m.number x width = some 6 := by
  have hnone : (List.range 6).filter (m.touches x width) = [] :=
    List.filter_eq_nil_iff.2 fun n hn => hmiss n (List.mem_range.1 hn)
  simp [RegMap.number, hnone]

/-- An access that names no register is refused (10_state.md R42; log 7). -/
theorem step_bus_refused {x : Word} {width : ReadWidth} {rest : List Turn} (hnone : s.bus.number x width = none) :
    (∀ w, s.turns = .host (.busWrite x width w) :: rest → step s = .refused .partialAccess) ∧
    (s.turns = .host (.busRead x width) :: rest → step s = .refused .partialAccess) :=
  ⟨fun w h => by rw [step_host h]; simp [hostTurn, hnone], fun h => by rw [step_host h]; simp [hostTurn, hnone]⟩

end Sys2Proof.Machine

namespace Sys2Proof.Proofs

open Sys2Proof Sys2Proof.Machine

/-- Settles O40, by cases on what a step can do: a µop continues or ends the command, a launch begins one,
a store only adds readable bytes, a reset leaves the block idle, and the rest the invariant does not see. -/
theorem stepKeepsTheInvariant : Obligations.StepKeepsTheInvariant := by
  intro s t hi h
  rcases step_next h with hsame | ⟨i, hu, he⟩ | ⟨-, -, hr, o, rfl⟩ | ⟨a, b, rfl⟩ | ⟨rest, -, rfl⟩
  · exact hi.of_commandPart_eq hsame
  · exact hi.takeTurn.exec_uop hu he
  · exact hi.takeTurn.launch hr o
  · exact hi.takeTurn.store a b
  · exact hi.of_idle rfl rfl rfl rfl

/-- Settles O36, by cases on the instruction: what each can leave behind is a chain of named updates, whose fields are read
off by the laws of State. -/
theorem onlyTheListedOperationsWrite : Obligations.OnlyTheListedOperationsWrite := by
  intro i s t h
  cases i with
  | hash64 | hash32 => rcases launch_next h with ⟨-, rfl⟩ | ⟨-, -, -, rfl⟩ <;> simp
  | salt | binit | bjoin | fin | fold32 | ret | mum | mix => obtain rfl := Host.Outcome.next.inj h; simp
  | pack0 | pack1 | pack2 | pack3 | pack4 | pack5 | pack6 | pack7 | pack8 | pack9 | pack10 | pack11 | pack12 | pack13
  | pack14 | pack15 | pack16 => obtain ⟨x0, x1, l, rfl⟩ := exec_layout_next rfl h; simp
  | b32 => obtain ⟨v0, v1, v2, v3, -, -, -, -, rfl⟩ := execB32_next h; simp [afterChunk32]
  | b16 => obtain ⟨v0, v1, -, -, rfl⟩ := execB16_next h; simp [afterChunk16]
  | tail => obtain ⟨v0, v1, -, -, rfl⟩ := execTail_next h; simp
  | rd1 | rd2 | rd4 | rd8 => obtain ⟨v, -, rfl⟩ := reader_next h; simp

/-- Settles O38: the core and the launch keep the constants and the places by O36, and no other step reaches them. -/
theorem constantTableNeverChanges : Obligations.ConstantTableNeverChanges := by
  intro s t h
  rcases step_next h with hsame | ⟨i, -, he⟩ | ⟨-, -, -, o, rfl⟩ | ⟨a, b, rfl⟩ | ⟨rest, -, rfl⟩
  · exact ⟨(congrArg State.k hsame :), (congrArg State.bus hsame :)⟩
  · obtain ⟨⟨hk, hbus, -⟩, -⟩ := onlyTheListedOperationsWrite i s.takeTurn t he
    exact ⟨hk, hbus⟩
  · exact ⟨rfl, rfl⟩
  · exact ⟨rfl, rfl⟩
  · exact ⟨rfl, rfl⟩

/-- Settles O44. For the step clause: of the operations that O36 lets write the flags, the core runs only RET, and a launch
comes only from a write to `CMD`. -/
theorem statusFollowsTheCommands : Obligations.StatusFollowsTheCommands := by
  refine ⟨status_eq_zero rfl rfl, ?launch, fun s => ⟨_, rfl, rfl, rfl, rfl⟩, ?bits, ?invariant, ?step, ?ignored⟩
  case launch =>
    intro s t hidle h
    have hlaunch : ∃ o, launch o s = .next t := h.elim (⟨0, ·⟩) (⟨1, ·⟩)
    obtain ⟨o, ho⟩ := hlaunch
    rcases launch_next ho with ⟨hbusy, -⟩ | ⟨-, -, -, rfl⟩
    · simp [hidle] at hbusy
    · exact ⟨rfl, rfl⟩
  case bits =>
    intro s
    cases hb : s.busy <;> cases hd : s.done <;> simp [State.status, hb, hd]
  case invariant =>
    intro s hi
    refine ⟨fun h3 => hi.notBoth ?_, hi.busyIff⟩
    cases hb : s.busy <;> cases hd : s.done <;> simp [State.status, hb, hd] at h3 ⊢
  case step =>
    intro s t h
    rcases step_next h with hsame | ⟨i, hu, he⟩ | ⟨hcmd, hidle, -, o, rfl⟩ | ⟨a, b, rfl⟩ | ⟨rest, hs, rfl⟩
    · exact .inl ⟨(congrArg State.busy hsame :), (congrArg State.done hsame :)⟩
    · by_cases hret : i = .ret
      · subst hret
        obtain rfl := Host.Outcome.next.inj he
        exact .inr (.inr (.inl ⟨(Option.some.inj hu).symm, rfl, rfl, rfl⟩))
      · obtain ⟨-, -, -, hflags, -⟩ := onlyTheListedOperationsWrite i s.takeTurn t he
        refine .inl (hflags fun hmem => ?_)
        have hcommand : i = .hash64 ∨ i = .hash32 := by simpa [hret] using hmem
        rcases hcommand with rfl | rfl <;> cases hu
    · exact .inr (.inl ⟨hidle, rfl, rfl, rfl, hcmd⟩)
    · exact .inl ⟨rfl, rfl⟩
    · exact .inr (.inr (.inr ⟨rfl, rfl, rest, hs⟩))
  case ignored =>
    intro s w rest h
    rw [step_writeReg h (by decide), writeRegister_ignored (.inl rfl)]

/-- Settles O53: an access names a register only where it is that register whole, and number 6 where it meets none. -/
theorem busAccessElsewhereReachesNoRegister : Obligations.BusAccessElsewhereReachesNoRegister := by
  intro s x w width rest
  refine ⟨fun n i j hn hi hj hbyte hwhole => ?_, fun hmiss => ?_⟩
  · have hnone : s.bus.number x width = none :=
      RegMap.number_eq_none (by omega) (RegMap.touches_iff.2 ⟨i, j, hi, hj, hbyte⟩) hwhole
    obtain ⟨hwrite, hread⟩ := step_bus_refused (rest := rest) hnone
    exact ⟨hwrite w, hread⟩
  · have hnumber : s.takeTurn.bus.number x width = some 6 := RegMap.number_eq_six fun n hn ht => by
      obtain ⟨i, j, hi, hj, hbyte⟩ := RegMap.touches_iff.1 ht
      exact hmiss n i j (by omega) hi hj hbyte
    refine ⟨fun h => ?_, fun h => ?_⟩
    · rw [step_host_congr h (hostTurn_busWrite hnumber w), step_writeReg rfl (by decide),
        writeRegister_ignored (.inr (by decide))]
    · rw [step_host_congr h (hostTurn_busRead hnumber), step_readReg rfl]
      exact ⟨_, rfl⟩

/-- Settles O12: the launch tests `BUSY` first, and an operand write is one update. -/
theorem writesWhileBusyDoNotTouchTheCommand : Obligations.WritesWhileBusyDoNotTouchTheCommand := by
  intro s w rest hbusy
  refine ⟨fun h => ?_, fun h => step_writeReg h (by decide), fun h => step_writeReg h (by decide),
    fun h => step_writeReg h (by decide)⟩
  rw [step_host h, State.takeTurn_of_turns h]
  exact writeTurn_cmd_of_busy (s := { s with turns := rest }) hbusy w

/-- Settles O39: the constants are odd by construction, and an idle block's registers are not asked about. -/
theorem invariantHoldsAtReset : Obligations.InvariantHoldsAtReset := by
  have hodd (j : Nat) : oddWord (Config.k j) = true := by simp [oddWord, Config.k]
  have hinv : Inv State.reset :=
    ⟨Memory.wf_nil, ⟨hodd 0, hodd 1, hodd 2, hodd 3⟩, nofun, by simp [State.reset], nofun, nofun⟩
  exact ⟨hinv, hinv, by simp [NoTestPort, State.reset], nofun⟩

/-- Settles O51, by the equation of a register read and `STATUS` as a sum. -/
theorem registerReadsReturnTheRegister : Obligations.RegisterReadsReturnTheRegister := by
  intro s rest
  refine ⟨fun h => ?_, fun h => step_readReg h, fun h => step_readReg h, fun h => step_readReg h, fun h hdone => ?_⟩
  · rw [step_readReg h, ← status_eq_add]
    rfl
  · rw [step_readReg h]
    simp [readRegister, hdone, State.setHostRead]

/-- Settles O54: each of these reads draws the next free value. -/
theorem unspecifiedReadsReturnSomeValue : Obligations.UnspecifiedReadsReturnSomeValue := by
  intro s reg rest h hreg
  rw [step_readReg h, readRegister_unspecified (s := { s with turns := rest }) hreg]
  exact ⟨_, rfl⟩

/-- Settles O55, by the equation of a register write. -/
theorem registerWritesReplaceOrAreIgnored : Obligations.RegisterWritesReplaceOrAreIgnored := by
  intro s reg w rest
  refine ⟨fun h => ⟨?_, ?_, ?_, fun hreg => ?_⟩, fun h => step_host h⟩
  · rintro rfl; exact step_writeReg h (by decide)
  · rintro rfl; exact step_writeReg h (by decide)
  · rintro rfl; exact step_writeReg h (by decide)
  · rw [step_writeReg h (by omega), writeRegister_ignored hreg]

/-- Settles O56: reset writes each of these fields. -/
theorem resetLeavesTheStatedValues : Obligations.ResetLeavesTheStatedValues :=
  ⟨⟨rfl, rfl, rfl, rfl, rfl, rfl, rfl⟩,
    fun _ _ h => ⟨_, step_reset h, rfl, rfl, rfl, rfl, rfl, rfl, rfl, rfl, status_eq_zero rfl rfl⟩⟩

end Sys2Proof.Proofs

/-! SUPPORT. The readers of the input space on any memory (20_memory.md R62, R71); which launches and stores the block
takes (R68 to R70); the turn that a step takes and the memory it leaves (R61). -/

namespace Sys2Proof.Machine

variable {s t : State} {i : Instr}

/-! ### MemRead and the readers -/

theorem memRead_succ (m : Memory) (a : Word) (n : Nat) :
    memRead m a (n + 1) = (m.byteAt a.toNat).bind fun b => (memRead m (a + 1) n).map (b :: ·) := by
  rw [memRead]
  cases m.byteAt a.toNat <;> cases memRead m (a + 1) n <;> rfl

/-- Two reads one after the other are the one read of their bytes. -/
theorem memRead_add (m : Memory) (a : Word) (i j : Nat) :
    memRead m a (i + j) = (memRead m a i).bind fun xs => (memRead m (a + BitVec.ofNat 64 i) j).map (xs ++ ·) := by
  induction i generalizing a with
  | zero => simp [memRead]
  | succ i ih =>
    rw [Nat.succ_add, memRead_succ, memRead_succ, ih, addr_succ]
    simp [Option.bind_assoc, Option.map_bind, Option.bind_map, Function.comp_def]

theorem memRead_length {m : Memory} {a : Word} {n : Nat} {bs : List Byte} (h : memRead m a n = some bs) :
    bs.length = n :=
  (memRead_eq_some.1 h).1

/-- A span with an absent byte is not read. -/
theorem memRead_eq_none {m : Memory} {a : Word} {n j : Nat} (hj : j < n)
    (habs : m.byteAt (a + BitVec.ofNat 64 j).toNat = none) : memRead m a n = none := by
  rw [Option.eq_none_iff_forall_ne_some]
  intro bs h
  obtain ⟨hlen, hbytes⟩ := memRead_eq_some.1 h
  exact absurd (habs.symm.trans (hbytes j (hlen ▸ hj))) nofun

/-- A reader of two halves is the two half-width reads, the upper one shifted above the lower (20_memory.md R62). -/
theorem rd_eq_halves (m : Memory) (a : Word) {w h : ReadWidth}
    (hw : ReadWidth.bytes w = ReadWidth.bytes h + ReadWidth.bytes h) :
    rd m w a = (rd m h a).bind fun x =>
      (rd m h (a + BitVec.ofNat 64 (ReadWidth.bytes h))).map fun y : Word => x ||| (y <<< (8 * ReadWidth.bytes h)) := by
  simp only [rd]
  rw [ hw, memRead_add]
  cases hlow : memRead m a (ReadWidth.bytes h) with
  | none => rfl
  | some xs => simp [Function.comp_def, le_append, memRead_length hlow]

/-- Little-endian assembly as the sum of the bytes, each at its own weight (00_scope.md section 6). -/
theorem le_toNat_eq_sum {bs : List Byte} (h : bs.length ≤ 8) :
    (le bs).toNat = ∑ j : Fin bs.length, (bs[j.val]).toNat * 2 ^ (8 * j.val) := by
  induction bs with
  | nil => rfl
  | cons b bs ih =>
    have hlen : bs.length ≤ 7 := Nat.succ_le_succ_iff.1 h
    have hle : (le bs).toNat < 2 ^ 56 :=
      calc (le bs).toNat < 256 ^ bs.length := le_lt (by omega)
        _ ≤ 256 ^ 7 := Nat.pow_le_pow_right (by decide) hlen
        _ = 2 ^ 56 := by norm_num
    rw [le_cons_toNat b bs hle, ih (by omega), Finset.mul_sum]
    refine Eq.trans ?_ (Fin.sum_univ_succ fun j : Fin (bs.length + 1) => ((b :: bs)[j.val]).toNat * 2 ^ (8 * j.val)).symm
    congr 1
    · simp
    · refine Finset.sum_congr rfl fun j _ => ?_
      simp only [Fin.val_succ, List.getElem_cons_succ]
      ring

theorem ReadWidth.bytes_le_eight (w : ReadWidth) : ReadWidth.bytes w ≤ 8 := by
  cases w <;> decide

theorem reader_of_absent {w : ReadWidth} {a : Word} {j : Nat} (habs : s.mem.byteAt (a + BitVec.ofNat 64 j).toNat = none)
    (hj : j < ReadWidth.bytes w) : reader w a s = .refused .inputUnreadable := by
  simp [reader, rd, memRead_eq_none hj habs]

/-! ### The launch and the host's stores -/

/-- Nothing is asked of a memory for a range of no bytes. -/
theorem Memory.covers_of_le (m : Memory) {lo hi : Nat} (h : hi ≤ lo) : m.covers lo hi = true := by
  cases m <;> simp [Memory.covers, h]

theorem launch_of_covers {o : BitVec 1} (hidle : s.busy = false) (hfits : s.data.toNat + s.size.toNat ≤ 2 ^ 64)
    (hcovers : s.mem.covers s.data.toNat (s.data.toNat + s.size.toNat) = true) :
    launch o s = .next (((s.latch o).flagsLaunch).goto .salt) := by
  rw [launch, hidle, if_neg (by decide), if_neg hfits.not_gt, hcovers]
  rfl

theorem launch_of_empty {o : BitVec 1} (hidle : s.busy = false) (hsize : s.size = 0) :
    launch o s = .next (((s.latch o).flagsLaunch).goto .salt) :=
  launch_of_covers hidle (by simpa [hsize] using s.data.isLt.le) (Memory.covers_of_le _ (by simp [hsize]))

theorem launch_of_wraps {o : BitVec 1} (hidle : s.busy = false) (hwraps : s.data.toNat + s.size.toNat > 2 ^ 64) :
    launch o s = .refused .windowWraps := by
  rw [launch, hidle, if_neg (by decide), if_pos hwraps]

theorem launch_of_absent {o : BitVec 1} {a : Nat} (hidle : s.busy = false)
    (hfits : s.data.toNat + s.size.toNat ≤ 2 ^ 64) (hlo : s.data.toNat ≤ a) (hhi : a < s.data.toNat + s.size.toNat)
    (habs : s.mem.byteAt a = none) : launch o s = .refused .windowUnreadable := by
  have hcovers : s.mem.covers s.data.toNat (s.data.toNat + s.size.toNat) = false := by
    rw [Bool.eq_false_iff]
    intro h
    simpa [habs] using Memory.isSome_of_covers h hlo hhi
  rw [launch, hidle, if_neg (by decide), if_neg hfits.not_gt, hcovers]
  rfl

/-- A store that changes no byte of a running window is done. -/
theorem hostStore_of_allowed {a : Word} {b : Byte}
    (h : s.busy = false ∨ s.inWindow a = false ∨ s.mem.byteAt a.toNat = some b) :
    hostStore a b s = .next (s.setMem (s.mem.store a.toNat b)) := by
  rcases h with h | h | h <;> simp [hostStore, h]

theorem hostStore_of_changed {a : Word} {b : Byte} (hbusy : s.busy = true) (hin : s.inWindow a = true)
    (hbyte : s.mem.byteAt a.toNat ≠ some b) : hostStore a b s = .refused .windowChanged := by
  simp [hostStore, hbusy, hin, hbyte]

/-! ### The turn a step takes and the memory it leaves -/

/-- No operation changes the input space: what each can leave behind is a chain of register updates. -/
theorem exec_mem (h : exec i s = .next t) : t.mem = s.mem := by
  cases i with
  | hash64 | hash32 => rcases launch_next h with ⟨-, rfl⟩ | ⟨-, -, -, rfl⟩ <;> simp
  | salt | binit | bjoin | fin | fold32 | ret | mum | mix => obtain rfl := Host.Outcome.next.inj h; simp
  | pack0 | pack1 | pack2 | pack3 | pack4 | pack5 | pack6 | pack7 | pack8 | pack9 | pack10 | pack11 | pack12 | pack13
  | pack14 | pack15 | pack16 => obtain ⟨x0, x1, l, rfl⟩ := exec_layout_next rfl h; simp
  | b32 => obtain ⟨v0, v1, v2, v3, -, -, -, -, rfl⟩ := execB32_next h; simp [afterChunk32]
  | b16 => obtain ⟨v0, v1, -, -, rfl⟩ := execB16_next h; simp [afterChunk16]
  | tail => obtain ⟨v0, v1, -, -, rfl⟩ := execTail_next h; simp
  | rd1 | rd2 | rd4 | rd8 => obtain ⟨v, -, rfl⟩ := reader_next h; simp

/-- The core's turn leaves the input space and the queue as they are. -/
theorem coreTurn_mem_turns (h : coreTurn s = .next t) : t.mem = s.mem ∧ t.turns = s.turns := by
  rcases coreTurn_next h with rfl | ⟨i, -, he⟩
  · exact ⟨rfl, rfl⟩
  · obtain ⟨⟨-, -, -, -, -, hturns, -⟩, -⟩ := Proofs.onlyTheListedOperationsWrite i s t he
    exact ⟨exec_mem he, hturns⟩

/-- What a step does to the state whose turn is taken: the core's turn, a host access to a register, a launch of an idle
block, a store of the host's, a reset, or a request on the test port. -/
theorem step_takeTurn (h : step s = .next t) :
    coreTurn s.takeTurn = .next t ∨
    (∃ size data seed v j,
      t = { s.takeTurn with size := size, data := data, seed := seed, hostRead := v, freeIdx := j }) ∨
    (∃ o, s.busy = false ∧ t = ((s.takeTurn.latch o).flagsLaunch).goto .salt) ∨
    (∃ x b rest, s.turns = .host (.store x b) :: rest ∧ t = s.takeTurn.setMem (s.mem.store x.toNat b)) ∨
    t = s.takeTurn.blockReset ∨
    (∃ u a b rest ma mb v l, s.turns = .prim u a b :: rest ∧
      t = { s.takeTurn with rMA := ma, rMB := mb, ret := v, reads := l }) := by
  rcases step_cases h with ⟨hs, h⟩ | ⟨rest, -, h⟩ | ⟨a, rest, hs, h⟩ | ⟨rest, -, rfl⟩ | ⟨u, a, b, rest, hs, h⟩
  · rw [← State.takeTurn_of_noTurns hs] at h
    exact .inl h
  · exact .inl h
  · rcases hostTurn_cases h with ⟨w, i, -, hd, he⟩ | ⟨w, r, -, -, rfl⟩ | ⟨n, w, -, -, rfl⟩ | ⟨n, rfl⟩ | ⟨x, b, rfl, h⟩
    · rcases exec_decodeCmd_next hd he with ⟨-, rfl⟩ | ⟨-, hidle, -, o, rfl⟩
      · exact .inr (.inl ⟨_, _, _, _, _, rfl⟩)
      · exact .inr (.inr (.inl ⟨o, hidle, rfl⟩))
    · exact .inr (.inl ⟨_, _, _, _, _, rfl⟩)
    · rcases writeRegister_cases n w s.takeTurn with ⟨-, h⟩ | ⟨-, h⟩ | ⟨-, h⟩ | ⟨-, -, -, h⟩ <;>
        exact .inr (.inl ⟨_, _, _, _, _, h⟩)
    · obtain ⟨v, j, h⟩ := readRegister_cases n s.takeTurn
      exact .inr (.inl ⟨_, _, _, _, _, h⟩)
    · exact .inr (.inr (.inr (.inl ⟨x, b, rest, hs, (hostStore_next h).1⟩)))
  · exact .inr (.inr (.inr (.inr (.inl rfl))))
  · obtain ⟨ma, mb, v, l, ht⟩ := primTurn_next h
    exact .inr (.inr (.inr (.inr (.inr ⟨u, a, b, rest, ma, mb, v, l, hs, ht⟩))))

/-- A step takes one turn from the queue and adds none. -/
theorem step_turns (h : step s = .next t) : t.turns = s.turns.tail := by
  rcases step_takeTurn h with hcore | ⟨_, _, _, _, _, rfl⟩ | ⟨o, -, rfl⟩ | ⟨x, b, rest, -, rfl⟩ | rfl |
    ⟨_, _, _, _, _, _, _, _, -, rfl⟩
  · exact (coreTurn_mem_turns hcore).2
  all_goals rfl

/-- Only a store of the host's changes the input space. -/
theorem step_mem (h : step s = .next t) : t.mem = s.mem ∨ ∃ x b rest, s.turns = .host (.store x b) :: rest := by
  rcases step_takeTurn h with hcore | ⟨_, _, _, _, _, rfl⟩ | ⟨o, -, rfl⟩ | ⟨x, b, rest, hs, rfl⟩ | rfl |
    ⟨_, _, _, _, _, _, _, _, -, rfl⟩
  · exact .inl (coreTurn_mem_turns hcore).1
  · exact .inl rfl
  · exact .inl rfl
  · exact .inr ⟨x, b, rest, hs⟩
  · exact .inl rfl
  · exact .inl rfl

end Sys2Proof.Machine

namespace Sys2Proof.Proofs

open Sys2Proof Sys2Proof.Machine

/-- Settles O10: an empty range passes both checks of the launch. -/
theorem emptyWindowLaunchesAnywhere : Obligations.EmptyWindowLaunchesAnywhere :=
  fun _ hidle hsize => ⟨⟨_, launch_of_empty hidle hsize, rfl, hsize⟩, ⟨_, launch_of_empty hidle hsize, rfl, hsize⟩⟩

/-- Settles O11: the launch tests for a wrap first, then walks the window. -/
theorem launchOfABadWindowIsRefused : Obligations.LaunchOfABadWindowIsRefused :=
  fun _ hidle =>
    ⟨fun hwraps => ⟨launch_of_wraps hidle hwraps, launch_of_wraps hidle hwraps⟩,
      fun _ hfits hlo hhi habs =>
        ⟨launch_of_absent hidle hfits hlo hhi habs, launch_of_absent hidle hfits hlo hhi habs⟩⟩

/-- Settles O15: a reader of two halves splits into them on any memory. -/
theorem readersAreLittleEndian : Obligations.ReadersAreLittleEndian := by
  refine fun m a => ⟨fun w bs hlen hbytes => ?_, rd_eq_halves m a rfl, rd_eq_halves m a rfl, rd_eq_halves m a rfl⟩
  have hread : memRead m a (ReadWidth.bytes w) = some bs := memRead_eq_some.2 ⟨hlen, hbytes⟩
  exact ⟨hread, le bs, by simp [rd, hread], le_toNat_eq_sum (hlen ▸ ReadWidth.bytes_le_eight w)⟩

/-- Settles O18: each of the four is the one reader at its width. -/
theorem readerOfAnAbsentByteIsRefused : Obligations.ReaderOfAnAbsentByteIsRefused :=
  fun _ _ _ habs => ⟨reader_of_absent (w := .w1) habs, reader_of_absent (w := .w2) habs,
    reader_of_absent (w := .w4) habs, reader_of_absent (w := .w8) habs⟩

/-- Settles O37, with O36 for the registers. -/
theorem blockNeverWritesMemory : Obligations.BlockNeverWritesMemory := by
  refine ⟨fun i s t h => ?_, fun s t h => (step_mem h).imp_left fun hmem _ => by rw [hmem]⟩
  obtain ⟨⟨hk, -, hsize, hdata, hseed, -⟩, hbytes, -⟩ := onlyTheListedOperationsWrite i s t h
  exact ⟨exec_mem h, hbytes, hsize, hdata, hseed, hk⟩

/-- Settles O58, by the two outcomes of a store and the read-after-store laws of the memory. -/
theorem hostStorePutsOneByte : Obligations.HostStorePutsOneByte := by
  intro s a b rest hs
  have hstep : step s = hostStore a b { s with turns := rest } := by
    rw [step_host hs, State.takeTurn_of_turns hs, hostTurn]
  rw [hstep]
  refine ⟨fun h => ⟨_, hostStore_of_allowed (s := { s with turns := rest }) h, rfl, ?_, fun x hx => ?_, fun hm => ?_⟩,
    hostStore_of_changed (s := { s with turns := rest })⟩
  · exact Memory.byteAt_store_same ..
  · exact Memory.byteAt_store_other _ _ _ hx
  · exact Memory.wf_store hm a b

end Sys2Proof.Proofs

/-! SUPPORT. The layouts as the terms of one formula (42_short_dispatch.md R141), their reads (20_memory.md R66), and why
every read of a running command stays inside its window (R65). -/

namespace Sys2Proof.Machine

variable {s t : State} {i : Instr}

/-! ### The terms of a layout -/

/-- The terms of the head of a short input, which fills lane `X0` (42_short_dispatch.md R142 to R158). -/
def headPieces (n : Nat) : List Piece :=
  if n = 0 then [] else if n = 1 then [⟨.w1, 0, 0⟩] else if n = 2 then [⟨.w2, 0, 0⟩]
  else if n = 3 then [⟨.w2, 0, 0⟩, ⟨.w1, 2, 16⟩] else if n ≤ 8 then [⟨.w4, 0, 0⟩] else [⟨.w8, 0, 0⟩]

/-- The terms of the remainder bytes, which fill lane `X1`. -/
def remainderPieces (n : Nat) : List Piece := bytePieces (headWidth n) 0 (n - headWidth n)

/-- The layout that a size selects packs the head and the remainder of that size. -/
theorem exec_layout_eq_pieces {n : Word} (h : decodeSize n = .ok i) :
    n.toNat ≤ 16 ∧ exec i s = packWith (headPieces n.toNat) (remainderPieces n.toNat) s := by
  unfold decodeSize at h
  split at h
  case h_18 => cases h
  all_goals
    rename_i hn
    cases h
    rw [hn]
    exact ⟨by decide, rfl⟩

theorem headWidth_le (n : Nat) : headWidth n ≤ n := by
  unfold headWidth
  split_ifs <;> omega

theorem mem_bytePieces {o k n : Nat} {q : Piece} (hq : q ∈ bytePieces o k n) :
    q.width = .w1 ∧ q.offset < o + n := by
  induction n generalizing o k with
  | zero => cases hq
  | succ n ih =>
    rcases List.mem_cons.1 hq with rfl | hq
    · exact ⟨rfl, by simp⟩
    · obtain ⟨hw, ho⟩ := ih hq
      exact ⟨hw, by omega⟩

/-- The terms of a layout stay inside its buffer. -/
theorem pieces_inside {n : Nat} {q : Piece} (hq : q ∈ headPieces n ++ remainderPieces n) :
    q.offset + ReadWidth.bytes q.width ≤ n := by
  rcases List.mem_append.1 hq with hq | hq
  · grind [headPieces, ReadWidth.bytes]
  · obtain ⟨hw, ho⟩ := mem_bytePieces hq
    have := headWidth_le n
    rw [hw, ReadWidth.bytes]
    omega

/-- Terms that stay inside a buffer can all be read. -/
theorem lane_holdsAt {m : Memory} {base : Word} {buf : List Byte} (h : HoldsAt m base buf) {l : List Piece}
    (hl : ∀ q ∈ l, q.offset + ReadWidth.bytes q.width ≤ buf.length) : ∃ x, lane m base l = some x := by
  induction l with
  | nil => exact ⟨0, rfl⟩
  | cons q rest ih =>
    obtain ⟨hq, hrest⟩ := List.forall_mem_cons.1 hl
    obtain ⟨x, hx⟩ := ih hrest
    exact ⟨_, lane_cons (rd_holdsAt h hq) hx⟩

/-! ### The reads of a layout -/

theorem laneReads_append (p : Word) (l l' : List Piece) : laneReads p (l ++ l') = laneReads p l ++ laneReads p l' :=
  List.map_append

/-- A run of single bytes is read in ascending order. -/
theorem laneReads_bytePieces (p : Word) (o k n : Nat) :
    laneReads p (bytePieces o k n) = (List.range n).map fun j => readAt p .w1 (o + j) := by
  induction n generalizing o k with
  | zero => rfl
  | succ n ih =>
    rw [List.range_succ_eq_map, List.map_cons, List.map_map, bytePieces, laneReads, List.map_cons, ← laneReads, ih]
    simp [readAt, Function.comp_def, Nat.add_assoc, Nat.add_comm 1]

/-- The terms of a layout are read as its row of the access list says. -/
theorem laneReads_pieces (p : Word) (n : Nat) :
    laneReads p (headPieces n ++ remainderPieces n) = shortReads p n := by
  rw [laneReads_append, remainderPieces, laneReads_bytePieces, shortReads]
  congr 1
  · unfold headPieces
    split_ifs <;> rfl
  · split_ifs with h
    · simp [headWidth, h]
    · rfl

/-- A layout that completes has issued its row of the access list, and goes to FIN. -/
theorem exec_layout_shortReads {n : Word} (hd : decodeSize n = .ok i) (h : exec i s = .next t) :
    ∃ x0 x1, t = ((s.setLanes x0 x1).logReads (shortReads s.rP n.toNat)).goto .fin := by
  rw [(exec_layout_eq_pieces hd).2] at h
  obtain ⟨x0, x1, -, -, ht⟩ := packWith_next h
  exact ⟨x0, x1, laneReads_pieces s.rP _ ▸ ht⟩

/-- A read of the short path's row is one of a span inside the buffer. -/
theorem mem_shortReads {p : Word} {n : Nat} {r : ReadReq} (hr : r ∈ shortReads p n) :
    ∃ w o, r = readAt p w o ∧ o + ReadWidth.bytes w ≤ n := by
  rw [← laneReads_pieces] at hr
  obtain ⟨q, hq, rfl⟩ := List.mem_map.1 hr
  exact ⟨q.width, q.offset, rfl, pieces_inside hq⟩

/-- Each of the 17 rows of the access list's short path reads the bytes of its buffer once, in ascending order: a table of
closed facts, checked row by row. -/
theorem shortReads_tile {n : Nat} (hn : n ≤ 16) :
    (shortReads 0 n).flatMap (fun r => (List.range (ReadWidth.bytes r.width)).map (r.addr.toNat + ·)) =
      List.range n := by
  interval_cases n <;> rfl

/-! ### The lanes of a buffer of ones -/

theorem le_replicate_ones {k : Nat} (hk : k ≤ 8) : (le (List.replicate k 0xFF)).toNat + 1 = 256 ^ k := by
  induction k with
  | zero => rfl
  | succ k ih =>
    have hlow := ih (by omega)
    have hpow : 256 ^ k ≤ 256 ^ 7 := Nat.pow_le_pow_right (by decide) (by omega)
    rw [List.replicate_succ, le_cons_toNat _ _ (by omega), pow_succ, ← hlow]
    simp
    omega

/-- The lanes of a buffer of ones tell how many bytes went into each. -/
theorem packLanes_ones_toNat {n : Nat} (hn : n ≤ 16) :
    (packLanes (List.replicate n 0xFF)).1.toNat + 1 = 256 ^ headWidth n ∧
    (packLanes (List.replicate n 0xFF)).2.toNat + 1 = 256 ^ (n - headWidth n) := by
  have hle := headWidth_le n
  have hhead : headWidth n ≤ 8 ∧ n - headWidth n ≤ 8 := by unfold headWidth; split_ifs <;> omega
  simp only [packLanes, List.length_replicate, List.take_replicate, List.drop_replicate, Nat.min_eq_left hle]
  exact ⟨le_replicate_ones hhead.1, le_replicate_ones hhead.2⟩

theorem packLanes_ones_injective {m n : Nat} (hm : m ≤ 16) (hn : n ≤ 16)
    (h : packLanes (List.replicate m 0xFF) = packLanes (List.replicate n 0xFF)) : m = n := by
  obtain ⟨hm0, hm1⟩ := packLanes_ones_toNat hm
  obtain ⟨hn0, hn1⟩ := packLanes_ones_toNat hn
  rw [h] at hm0 hm1
  have hhead : headWidth m = headWidth n := Nat.pow_right_injective (by decide) (hm0.symm.trans hn0)
  have hrest : m - headWidth m = n - headWidth n :=
    Nat.pow_right_injective (by decide) (hm1.symm.trans hn1)
  have := headWidth_le m
  have := headWidth_le n
  omega

/-! ### The window of a running command -/

theorem ReadWidth.bytes_pos (w : ReadWidth) : 0 < ReadWidth.bytes w := by
  cases w <;> decide

/-- A read of the bytes that remain, from the cursor up, is in the window. -/
theorem insideWindow_cursor {w : ReadWidth} {c : Nat} (hfits : s.windowBase.toNat + s.rN.toNat ≤ 2 ^ 64)
    (hI : s.rI.toNat ≤ s.rN.toNat) (hc : c + ReadWidth.bytes w ≤ s.rI.toNat) : InsideWindow s ⟨w, s.cursor c⟩ := by
  have := ReadWidth.bytes_pos w
  simp only [InsideWindow, State.windowBase, State.cursor, BitVec.toNat_add, BitVec.toNat_sub, BitVec.toNat_ofNat] at *
  omega

/-- A read back from the window's end, no further than its size, is in the window. -/
theorem insideWindow_fromEnd {w : ReadWidth} {c : Nat} (hfits : s.windowBase.toNat + s.rN.toNat ≤ 2 ^ 64)
    (hc : c ≤ s.rN.toNat) (hw : ReadWidth.bytes w ≤ c) : InsideWindow s ⟨w, s.fromEnd c⟩ := by
  have := ReadWidth.bytes_pos w
  simp only [InsideWindow, State.windowBase, State.fromEnd, BitVec.toNat_add, BitVec.toNat_sub, BitVec.toNat_ofNat] at *
  omega

/-- `t` has the window of `s` and has issued the reads of `s` and then only reads in that window. -/
structure ReadsOn (s t : State) : Prop where
  windowBase : t.windowBase = s.windowBase
  rN : t.rN = s.rN
  reads : ∃ l, t.reads = s.reads ++ l ∧ ∀ r ∈ l, InsideWindow s r

theorem ReadsOn.of_eq (hbase : t.windowBase = s.windowBase) (hN : t.rN = s.rN) (hreads : t.reads = s.reads) :
    ReadsOn s t :=
  ⟨hbase, hN, [], by simp [hreads], nofun⟩

theorem ContinuesCommand.readsOn {l : List ReadReq} (h : ContinuesCommand s t) (hreads : t.reads = s.reads ++ l)
    (hl : ∀ r ∈ l, InsideWindow s r) : ReadsOn s t :=
  ⟨h.windowBase, h.rN, l, hreads, hl⟩

/-- Reads that were in the window stay in it. -/
theorem ReadsOn.inside (h : ReadsOn s t) (hs : ∀ r ∈ s.reads, InsideWindow s r) : ∀ r ∈ t.reads, InsideWindow t r := by
  obtain ⟨l, hreads, hl⟩ := h.reads
  intro r hr
  rw [InsideWindow, h.windowBase, h.rN]
  rw [hreads] at hr
  exact (List.mem_append.1 hr).elim (hs r) (hl r)

/-- The core of a running command reads only in its window, µop by µop. -/
theorem Inv.coreTurn_readsOn (hi : Inv s) (hbusy : s.busy = true) (h : coreTurn s = .next t) : ReadsOn s t := by
  obtain ⟨⟨hfits, -⟩, hIN⟩ := hi.window hbusy
  have hstage := hi.stage hbusy
  cases hu : s.upc with
  | idle => exact absurd hu (hi.busyIff.1 hbusy)
  | salt | binit | bjoin | fin | fold32 | ret =>
    simp only [coreTurn_salt, coreTurn_binit, coreTurn_bjoin, coreTurn_fin, coreTurn_fold32, coreTurn_ret, hu] at h
    obtain rfl := Host.Outcome.next.inj h
    exact .of_eq (by simp [State.windowBase]) (by simp) (by simp)
  | pack =>
    cases hd : decodeSize s.rN with
    | error r => rw [coreTurn_pack_error hu hd] at h; cases h
    | ok i =>
      obtain ⟨hI, -⟩ : s.rI = s.rN ∧ s.rN.toNat ≤ 16 := by simpa [StageOk, hu] using hstage
      rw [coreTurn_pack hu hd] at h
      obtain ⟨x0, x1, rfl⟩ := exec_layout_shortReads hd h
      refine ⟨rfl, rfl, _, rfl, fun r hr => ?_⟩
      obtain ⟨w, o, rfl, ho⟩ := mem_shortReads hr
      exact insideWindow_cursor hfits hIN (hI ▸ ho)
  | b32 =>
    obtain ⟨-, hI⟩ : 16 < s.rN.toNat ∧ 32 < s.rI.toNat := by simpa [StageOk, hu] using hstage
    rw [coreTurn_b32 hu] at h
    obtain ⟨v0, v1, v2, v3, -, -, -, -, rfl⟩ := execB32_next h
    refine (afterChunk32_continues _ _ _ _ hI.le).readsOn rfl ?_
    simp only [List.forall_mem_cons]
    refine ⟨?_, ?_, ?_, ?_, nofun⟩ <;>
      exact insideWindow_cursor hfits hIN (by simp only [ReadWidth.bytes]; omega)
  | b16 =>
    obtain ⟨-, hI, -⟩ : 16 < s.rN.toNat ∧ 16 < s.rI.toNat ∧ s.rI.toNat ≤ 32 := by simpa [StageOk, hu] using hstage
    rw [coreTurn_b16 hu] at h
    obtain ⟨v0, v1, -, -, rfl⟩ := execB16_next h
    refine (afterChunk16_continues _ _ hI.le).readsOn rfl ?_
    simp only [List.forall_mem_cons]
    refine ⟨?_, ?_, nofun⟩ <;> exact insideWindow_cursor hfits hIN (by simp only [ReadWidth.bytes]; omega)
  | tail =>
    obtain ⟨hN, -, -⟩ : 16 < s.rN.toNat ∧ 1 ≤ s.rI.toNat ∧ s.rI.toNat ≤ 16 := by simpa [StageOk, hu] using hstage
    rw [coreTurn_tail hu] at h
    obtain ⟨v0, v1, -, -, rfl⟩ := execTail_next h
    refine ⟨rfl, rfl, _, rfl, ?_⟩
    simp only [List.forall_mem_cons]
    refine ⟨?_, ?_, nofun⟩ <;> exact insideWindow_fromEnd hfits (by omega) (by decide)

/-- Without the test port, a step of a running command reads on in its window or ends it; an idle block reads nothing, and
a launch empties the log. -/
theorem Inv.step_readsOn (hi : Inv s) (hport : NoTestPort s) (h : step s = .next t) :
    t.busy = false ∨ t.reads = [] ∨ s.busy = true ∧ ReadsOn s t := by
  have keeps (hb : t.busy = s.busy) (hr : ReadsOn s t) : t.busy = false ∨ t.reads = [] ∨ s.busy = true ∧ ReadsOn s t := by
    cases hs : s.busy with
    | false => exact .inl (hb.trans hs)
    | true => exact .inr (.inr ⟨rfl, hr⟩)
  rcases step_takeTurn h with hcore | ⟨_, _, _, _, _, rfl⟩ | ⟨o, -, rfl⟩ | ⟨x, b, rest, -, rfl⟩ | rfl |
    ⟨u, a, b, rest, _, _, _, _, hs, -⟩
  · cases hbusy : s.busy with
    | true =>
      obtain ⟨hbase, hN, hreads⟩ := hi.takeTurn.coreTurn_readsOn hbusy hcore
      exact .inr (.inr ⟨rfl, hbase, hN, hreads⟩)
    | false =>
      have hidle : s.upc = .idle := by simpa [hbusy] using hi.busyIff
      obtain rfl := Host.Outcome.next.inj ((coreTurn_idle (s := s.takeTurn) hidle).symm.trans hcore)
      exact .inl hbusy
  · exact keeps rfl (.of_eq rfl rfl rfl)
  · exact .inr (.inl rfl)
  · exact keeps rfl (.of_eq rfl rfl rfl)
  · exact .inl rfl
  · exact absurd (hs ▸ List.mem_cons_self) (hport u a b)

end Sys2Proof.Machine

namespace Sys2Proof.Proofs

open Sys2Proof Sys2Proof.Machine

/-- Settles O41: the invariant is kept by O40, a step puts no turn into the queue, and what it reads is in the window. -/
theorem readsStayInsideTheWindow : Obligations.ReadsStayInsideTheWindow := by
  intro s t hs h
  refine ⟨stepKeepsTheInvariant s t hs.inv h, fun u a b hmem => ?_, fun hbusy => ?_⟩
  · exact hs.noTestPort u a b (List.mem_of_mem_tail (step_turns h ▸ hmem))
  · rcases hs.inv.step_readsOn hs.noTestPort h with hidle | hempty | ⟨hrun, hon⟩
    · simp [hidle] at hbusy
    · simp [hempty]
    · exact hon.inside (hs.inside hrun)

/-- Settles O27: a layout is read as its row says, the rows are a finite table, and the lanes of a buffer of ones tell how
many bytes each of them holds. -/
theorem layoutsReadEachByteOnce : Obligations.LayoutsReadEachByteOnce := by
  refine ⟨fun n i s t hd h => ?_, fun n hn => shortReads_tile hn,
    fun m n hm hn hne h => hne (packLanes_ones_injective hm hn h)⟩
  obtain ⟨x0, x1, rfl⟩ := exec_layout_shortReads hd h
  rfl

end Sys2Proof.Proofs

/-! SUPPORT. The course of a command that runs to its end: where it stands after each of its µops and which reads it has
issued (45_commands.md R205, 43_bulk_folder.md R175, 20_memory.md R66, R77). -/

namespace Sys2Proof.Machine

variable {s t : State} {P Q : State → Prop}

/-! ### Runs -/

theorem run_succ {M : Host.Core} {k : Nat} {s t : M.State} (h : M.step s = .next t) : M.run (k + 1) s = M.run k t := by
  rw [Host.Core.run, h]

theorem run_succ_refused {M : Host.Core} {k : Nat} {s : M.State} {r : M.Refusal} (h : M.step s = .refused r) :
    M.run (k + 1) s = .refused r := by
  rw [Host.Core.run, h]

theorem core_run_succ {k : Nat} (h : step s = .next t) :
    Sys2Proof.core.run (k + 1) s = Sys2Proof.core.run k t :=
  run_succ (M := Sys2Proof.core) h

theorem core_run_succ_refused {k : Nat} {r : Refusal} (h : step s = .refused r) :
    Sys2Proof.core.run (k + 1) s = .refused r :=
  run_succ_refused (M := Sys2Proof.core) h

/-- A run goes on where one that completed has ended. -/
theorem core_run_add {i j : Nat} (h : Sys2Proof.core.run i s = .next t) :
    Sys2Proof.core.run (i + j) s = Sys2Proof.core.run j t := by
  induction i generalizing s with
  | zero =>
    obtain rfl := Host.Outcome.next.inj h
    rw [Nat.zero_add]
  | succ i ih =>
    rw [Nat.succ_add]
    cases hs : step s with
    | next u =>
      rw [core_run_succ hs] at h ⊢
      exact ih h
    | fault r => exact nomatch r
    | refused r =>
      rw [core_run_succ_refused hs] at h
      cases h

/-- `k` steps from `s` end in a state of which `P` holds. -/
def RunsTo (k : Nat) (s : State) (P : State → Prop) : Prop :=
  ∃ t : State, Sys2Proof.core.run k s = .next t ∧ P t

theorem RunsTo.zero (h : P s) : RunsTo 0 s P :=
  ⟨s, rfl, h⟩

theorem RunsTo.one (hs : step s = .next t) (ht : P t) : RunsTo 1 s P :=
  ⟨t, core_run_succ hs, ht⟩

theorem RunsTo.imp {k : Nat} (h : RunsTo k s P) (hPQ : ∀ t, P t → Q t) : RunsTo k s Q := by
  obtain ⟨t, hrun, hP⟩ := h
  exact ⟨t, hrun, hPQ t hP⟩

theorem RunsTo.trans {i j : Nat} (h : RunsTo i s P) (hPQ : ∀ t, P t → RunsTo j t Q) : RunsTo (i + j) s Q := by
  obtain ⟨t, hrun, hP⟩ := h
  obtain ⟨u, hrun', hQ⟩ := hPQ t hP
  exact ⟨u, (core_run_add hrun).trans hrun', hQ⟩

/-- Every size up to 16 selects a layout. -/
theorem decodeSize_of_le {n : Word} (h : n.toNat ≤ 16) : ∃ i, decodeSize n = .ok i := by
  unfold decodeSize
  split
  case h_18 => simp_all only [imp_false]; omega
  all_goals exact ⟨_, rfl⟩

/-! ### How often the loops run (43_bulk_folder.md R175) -/

theorem q32_pos_iff {n : Nat} : 0 < q32 n ↔ 32 < n := by
  unfold q32
  omega

theorem q16_eq_one_iff {n : Nat} : q16 n = 1 ↔ 32 * q32 n + 16 < n := by
  simp only [q16, ite_eq_left_iff, Nat.zero_ne_one, imp_false, not_not]
  omega

/-! ### Where a command stands -/

/-- The core alone runs the command `opl` over the buffer `buf` at `base`: the µop `u` is next, the chunks before offset `o`
are folded, and `l` has been read. -/
structure CommandAt (base : Word) (buf : List Byte) (opl : BitVec 1) (u : Upc) (o : Nat) (l : List ReadReq)
    (t : State) : Prop where
  turns : t.turns = []
  upc : t.upc = u
  rOPL : t.rOPL = opl
  buffer : HoldsAt t.mem base buf
  rN : t.rN.toNat = buf.length
  rI : t.rI.toNat + o = buf.length
  rP : t.rP = base + BitVec.ofNat 64 o
  reads : t.reads = l

@[simp] theorem afterChunk32_turns (v0 v1 v2 v3 : Word) : (afterChunk32 s v0 v1 v2 v3).turns = s.turns := by
  simp [afterChunk32]
@[simp] theorem afterChunk32_rOPL (v0 v1 v2 v3 : Word) : (afterChunk32 s v0 v1 v2 v3).rOPL = s.rOPL := by
  simp [afterChunk32]
@[simp] theorem afterChunk32_mem (v0 v1 v2 v3 : Word) : (afterChunk32 s v0 v1 v2 v3).mem = s.mem := by
  simp [afterChunk32]
@[simp] theorem afterChunk32_rP (v0 v1 v2 v3 : Word) : (afterChunk32 s v0 v1 v2 v3).rP = s.rP + 32 := by
  simp [afterChunk32]
@[simp] theorem afterChunk32_reads (v0 v1 v2 v3 : Word) : (afterChunk32 s v0 v1 v2 v3).reads =
    s.reads ++ [⟨.w8, s.cursor 0⟩, ⟨.w8, s.cursor 8⟩, ⟨.w8, s.cursor 16⟩, ⟨.w8, s.cursor 24⟩] := by
  simp [afterChunk32]
@[simp] theorem afterChunk16_turns (v0 v1 : Word) : (afterChunk16 s v0 v1).turns = s.turns := by simp [afterChunk16]
@[simp] theorem afterChunk16_rOPL (v0 v1 : Word) : (afterChunk16 s v0 v1).rOPL = s.rOPL := by simp [afterChunk16]
@[simp] theorem afterChunk16_mem (v0 v1 : Word) : (afterChunk16 s v0 v1).mem = s.mem := by simp [afterChunk16]
@[simp] theorem afterChunk16_rP (v0 v1 : Word) : (afterChunk16 s v0 v1).rP = s.rP + 16 := by simp [afterChunk16]
@[simp] theorem afterChunk16_reads (v0 v1 : Word) :
    (afterChunk16 s v0 v1).reads = s.reads ++ [⟨.w8, s.cursor 0⟩, ⟨.w8, s.cursor 8⟩] := by simp [afterChunk16]

/-- A launch by a write to `CMD` (45_commands.md R200). -/
theorem step_launch {opl : BitVec 1} {w : Word} {rest : List Turn} (hw : opl = 0 ∧ w = 1 ∨ opl = 1 ∧ w = 2)
    (hs : s.turns = .host (.writeReg 0 w) :: rest) : step s = launch opl { s with turns := rest } := by
  rw [step_host hs, State.takeTurn_of_turns hs]
  rcases hw with ⟨rfl, rfl⟩ | ⟨rfl, rfl⟩ <;> rfl

section
variable {base : Word} {buf : List Byte} {opl : BitVec 1} {u : Upc} {o : Nat} {l : List ReadReq}

/-- A launched command stands at SALT, with nothing read. -/
theorem commandAt_launch (hidle : s.busy = false) (hm : s.mem.wf = true) (hsize : s.size.toNat = buf.length)
    (hbuf : HoldsAt s.mem s.data buf) {w : Word} (hw : opl = 0 ∧ w = 1 ∨ opl = 1 ∧ w = 2)
    (hs : s.turns = [.host (.writeReg 0 w)]) : RunsTo 1 s (CommandAt s.data buf opl .salt 0 []) := by
  have hread : Readable s.mem s.data s.size := readable_of_holdsAt hsize.symm hbuf
  have hstep := (step_launch hw hs).trans (launch_of_readable (s := { s with turns := [] }) hidle hm hread)
  exact .one hstep ⟨rfl, rfl, rfl, hbuf, hsize, hsize, by simp, rfl⟩

namespace CommandAt

/-! ### The reads of a µop -/

theorem cursor_eq (h : CommandAt base buf opl u o l t) (c : Nat) : t.cursor c = base + BitVec.ofNat 64 (o + c) := by
  rw [State.cursor, h.rP, BitVec.add_assoc, ← BitVec.ofNat_add]

theorem fromEnd_eq (h : CommandAt base buf opl u o l t) {c : Nat} (hc : c ≤ buf.length) :
    t.fromEnd c = base + BitVec.ofNat 64 (buf.length - c) := by
  have hI := h.rI
  apply BitVec.eq_of_toNat_eq
  simp only [State.fromEnd, h.rP, BitVec.toNat_add, BitVec.toNat_sub, BitVec.toNat_ofNat]
  omega

theorem rd_cursor (h : CommandAt base buf opl u o l t) {c : Nat} (hc : o + c + 8 ≤ buf.length) :
    rd t.mem .w8 (t.cursor c) = some (word8 buf (o + c)) := by
  rw [h.cursor_eq]
  exact rd_holdsAt h.buffer hc

theorem rd_fromEnd (h : CommandAt base buf opl u o l t) {c : Nat} (hc : c ≤ buf.length) (h8 : 8 ≤ c) :
    rd t.mem .w8 (t.fromEnd c) = some (word8 buf (buf.length - c)) := by
  rw [h.fromEnd_eq hc]
  exact rd_holdsAt h.buffer (by simp only [ReadWidth.bytes]; omega)

/-! ### The µops, one by one -/

/-- The core moves: nobody else is waiting. -/
theorem step_eq (h : CommandAt base buf opl u o l t) : step t = coreTurn t :=
  step_of_noTurns h.turns

theorem run_salt (h : CommandAt base buf opl .salt 0 l t) :
    RunsTo 1 t (CommandAt base buf opl (if buf.length ≤ 16 then .pack else .binit) 0 l) := by
  refine .one (h.step_eq.trans (coreTurn_salt h.upc)) ⟨h.turns, ?_, h.rOPL, h.buffer, h.rN, h.rI, h.rP, h.reads⟩
  rw [← h.rN]
  rfl

/-- The layout of the buffer's size completes, since its terms stay inside the buffer. -/
theorem run_pack (h : CommandAt base buf opl .pack 0 [] t) (hn : buf.length ≤ 16) :
    RunsTo 1 t (CommandAt base buf opl .fin 0 (shortReads base buf.length)) := by
  have hP : t.rP = base := by simpa using h.rP
  have hbuf : HoldsAt t.mem t.rP buf := hP ▸ h.buffer
  obtain ⟨i, hi⟩ := decodeSize_of_le (h.rN ▸ hn)
  have hexec := (exec_layout_eq_pieces (s := t) hi).2
  rw [h.rN] at hexec
  obtain ⟨x0, hx0⟩ := lane_holdsAt hbuf fun q hq => pieces_inside (List.mem_append_left _ hq)
  obtain ⟨x1, hx1⟩ := lane_holdsAt hbuf fun q hq => pieces_inside (List.mem_append_right _ hq)
  have hstep := ((h.step_eq.trans (coreTurn_pack h.upc hi)).trans hexec).trans (packWith_of_lanes hx0 hx1)
  refine .one hstep ⟨h.turns, rfl, h.rOPL, h.buffer, h.rN, h.rI, h.rP, ?_⟩
  simp [h.reads, laneReads_pieces, hP]

theorem run_binit (h : CommandAt base buf opl .binit 0 l t) (hn : 16 < buf.length) :
    RunsTo 1 t (CommandAt base buf opl (if 32 < buf.length then .b32 else .b16) 0 l) := by
  refine .one (h.step_eq.trans (coreTurn_binit h.upc)) ⟨h.turns, ?_, h.rOPL, h.buffer, h.rN, h.rI, h.rP, h.reads⟩
  have hI : t.rI.toNat = buf.length := h.rI
  rw [State.goto_upc, afterBinit, hI, if_pos hn]

/-- One 32-byte chunk: what B32 leaves behind. -/
theorem step_b32 (h : CommandAt base buf opl .b32 o l t) (ho : o + 32 < buf.length) :
    step t = .next (afterChunk32 t (word8 buf o) (word8 buf (o + 8)) (word8 buf (o + 16)) (word8 buf (o + 24))) := by
  rw [h.step_eq, coreTurn_b32 h.upc]
  exact execB32_of_rd (h.rd_cursor (c := 0) (by omega)) (h.rd_cursor (by omega)) (h.rd_cursor (by omega))
    (h.rd_cursor (by omega))

/-- A chunk that is left moves the remaining count by its size. -/
theorem rI_sub (h : CommandAt base buf opl u o l t) {d : Nat} (hd : o + d ≤ buf.length) :
    (t.rI - BitVec.ofNat 64 d).toNat + (o + d) = buf.length := by
  have hI := h.rI
  rw [BitVec.toNat_sub, BitVec.toNat_ofNat]
  omega

theorem rP_add (h : CommandAt base buf opl u o l t) (d : Nat) :
    t.rP + BitVec.ofNat 64 d = base + BitVec.ofNat 64 (o + d) :=
  h.cursor_eq d

theorem run_b32 (h : CommandAt base buf opl .b32 o l t) (ho : o + 32 < buf.length) :
    RunsTo 1 t (CommandAt base buf opl (if o + 64 < buf.length then .b32 else .bjoin) (o + 32)
      (l ++ chunkReads base o)) := by
  have hI : (t.rI - 32).toNat + (o + 32) = buf.length := h.rI_sub ho.le
  refine .one (h.step_b32 ho) ⟨by simp [h.turns], ?_, by simp [h.rOPL], by simpa using h.buffer, by simpa using h.rN,
    by simpa using hI, by simpa using h.rP_add 32, by simp [h.reads, h.cursor_eq, chunkReads, readAt]⟩
  rw [afterChunk32_upc, afterB32]
  exact if_congr (by omega) rfl rfl

/-- The 32-byte loop: it goes on while more than 32 bytes are left, so `q32` times (43_bulk_folder.md R175). -/
theorem run_b32_loop (h : CommandAt base buf opl .b32 0 [] t) {j : Nat} (hq : 0 < q32 buf.length)
    (hj : j ≤ q32 buf.length) :
    RunsTo j t (CommandAt base buf opl (if j < q32 buf.length then .b32 else .bjoin) (32 * j) (loopReads base j)) := by
  induction j with
  | zero => rw [if_pos hq]; exact .zero h
  | succ j ih =>
    refine (ih (by omega)).trans fun u hu => ?_
    rw [if_pos (Nat.lt_of_succ_le hj)] at hu
    have hmore : 32 * j + 64 < buf.length ↔ j + 1 < q32 buf.length := by unfold q32; omega
    have hleft : 32 * j + 32 < buf.length := by unfold q32 at hj; omega
    simpa only [hmore, Nat.mul_succ, loopReads] using hu.run_b32 hleft

theorem run_bjoin (h : CommandAt base buf opl .bjoin o l t) :
    RunsTo 1 t (CommandAt base buf opl (if o + 16 < buf.length then .b16 else .tail) o l) := by
  refine .one (h.step_eq.trans (coreTurn_bjoin h.upc)) ⟨h.turns, ?_, h.rOPL, h.buffer, h.rN, h.rI, h.rP, h.reads⟩
  have hI := h.rI
  exact if_congr (by simp; omega) rfl rfl

/-- One 16-byte chunk: what B16 leaves behind. -/
theorem step_b16 (h : CommandAt base buf opl .b16 o l t) (ho : o + 16 < buf.length) :
    step t = .next (afterChunk16 t (word8 buf o) (word8 buf (o + 8))) := by
  rw [h.step_eq, coreTurn_b16 h.upc]
  exact execB16_of_rd (h.rd_cursor (c := 0) (by omega)) (h.rd_cursor (by omega))

/-- B16 runs on the last 17 to 32 bytes, so the tail is next. -/
theorem run_b16 (h : CommandAt base buf opl .b16 o l t) (ho : o + 16 < buf.length) (ho' : buf.length ≤ o + 32) :
    RunsTo 1 t (CommandAt base buf opl .tail (o + 16) (l ++ [readAt base .w8 o, readAt base .w8 (o + 8)])) := by
  have hI : (t.rI - 16).toNat + (o + 16) = buf.length := h.rI_sub ho.le
  refine .one (h.step_b16 ho) ⟨by simp [h.turns], ?_, by simp [h.rOPL], by simpa using h.buffer, by simpa using h.rN,
    by simpa using hI, by simpa using h.rP_add 16, by simp [h.reads, h.cursor_eq, readAt]⟩
  rw [afterChunk16_upc, afterB16]
  exact if_neg (by omega)

/-- The tail reads back from the end of the buffer, whatever the cursor is. -/
theorem run_tail (h : CommandAt base buf opl .tail o l t) (hn : 16 < buf.length) :
    RunsTo 1 t (CommandAt base buf opl .fin o
      (l ++ [readAt base .w8 (buf.length - 16), readAt base .w8 (buf.length - 8)])) := by
  have hstep := (h.step_eq.trans (coreTurn_tail h.upc)).trans
    (execTail_of_rd (h.rd_fromEnd (by omega) (by omega)) (h.rd_fromEnd (by omega) le_rfl))
  refine .one hstep ⟨h.turns, rfl, h.rOPL, h.buffer, h.rN, h.rI, h.rP, ?_⟩
  simp [h.reads, h.fromEnd_eq hn.le, h.fromEnd_eq (c := 8) (by omega), readAt]

theorem run_fin (h : CommandAt base buf opl .fin o l t) :
    RunsTo 1 t (CommandAt base buf opl (if opl = 1 then .fold32 else .ret) o l) := by
  refine .one (h.step_eq.trans (coreTurn_fin h.upc)) ⟨?_, ?_, ?_, ?_, ?_, ?_, ?_, ?_⟩ <;>
    simp [h.turns, h.rOPL, h.buffer, h.rN, h.rI, h.rP, h.reads, afterFin]

theorem run_fold32 (h : CommandAt base buf opl .fold32 o l t) : RunsTo 1 t (CommandAt base buf opl .ret o l) :=
  .one (h.step_eq.trans (coreTurn_fold32 h.upc)) ⟨h.turns, rfl, h.rOPL, h.buffer, h.rN, h.rI, h.rP, h.reads⟩

theorem run_ret (h : CommandAt base buf opl .ret o l t) : RunsTo 1 t (CommandAt base buf opl .idle o l) :=
  .one (h.step_eq.trans (coreTurn_ret h.upc)) ⟨h.turns, rfl, h.rOPL, h.buffer, h.rN, h.rI, h.rP, h.reads⟩

/-! ### The paths through a command (45_commands.md R205) -/

/-- The finalizer, the fold of HASH32 and RET read nothing. -/
theorem run_finish (h : CommandAt base buf opl .fin o l t) :
    RunsTo (2 + if opl = 1 then 1 else 0) t (CommandAt base buf opl .idle o l) := by
  split_ifs with hopl
  · refine RunsTo.trans (i := 1) (j := 2) h.run_fin fun t h => ?_
    rw [if_pos hopl] at h
    exact h.run_fold32.trans fun t h => h.run_ret
  · refine RunsTo.trans (i := 1) (j := 1) h.run_fin fun t h => ?_
    rw [if_neg hopl] at h
    exact h.run_ret

/-- The loop from BINIT on, with BJOIN if it ran. -/
theorem run_bulkLoop (h : CommandAt base buf opl .binit 0 [] t) (hn : 16 < buf.length) :
    RunsTo (1 + q32 buf.length + if q32 buf.length ≥ 1 then 1 else 0) t
      (CommandAt base buf opl (if q16 buf.length = 1 then .b16 else .tail) (32 * q32 buf.length)
        (loopReads base (q32 buf.length))) := by
  have hbinit := h.run_binit hn
  simp only [← q32_pos_iff] at hbinit
  rcases Nat.eq_zero_or_pos (q32 buf.length) with hq | hq
  · have hq16 : q16 buf.length = 1 := q16_eq_one_iff.2 (by omega)
    simpa [hq, hq16, loopReads] using hbinit
  · rw [if_pos hq] at hbinit
    rw [if_pos (Nat.succ_le_of_lt hq)]
    refine (hbinit.trans fun t h => h.run_b32_loop hq le_rfl).trans fun t h => ?_
    rw [if_neg (lt_irrefl _)] at h
    simpa only [q16_eq_one_iff] using h.run_bjoin

/-- The 16-byte chunk if there is one, and the tail. -/
theorem run_bulkEnd (h : CommandAt base buf opl (if q16 buf.length = 1 then .b16 else .tail) (32 * q32 buf.length) l t)
    (hn : 16 < buf.length) :
    RunsTo (q16 buf.length + 1) t (CommandAt base buf opl .fin (32 * q32 buf.length + 16 * q16 buf.length)
      (l ++ (if q16 buf.length = 1 then
          [readAt base .w8 (32 * q32 buf.length), readAt base .w8 (32 * q32 buf.length + 8)] else []) ++
        [readAt base .w8 (buf.length - 16), readAt base .w8 (buf.length - 8)])) := by
  split_ifs at h ⊢ with hq16
  · rw [hq16]
    exact (h.run_b16 (q16_eq_one_iff.1 hq16) (by unfold q32; omega)).trans fun t h => h.run_tail hn
  · have hzero : q16 buf.length = 0 := by simpa [q16] using hq16
    rw [hzero]
    simpa using h.run_tail hn

/-- Up to 16 bytes: SALT, PACK, and the finalizer. -/
theorem run_shortPath (h : CommandAt base buf opl .salt 0 [] t) (hn : buf.length ≤ 16) :
    RunsTo (uopCount buf.length opl) t (CommandAt base buf opl .idle 0 (shortReads base buf.length)) := by
  have hcount : uopCount buf.length opl = 1 + 1 + (2 + if opl = 1 then 1 else 0) := by
    rw [uopCount, if_pos hn, ← Nat.add_assoc]
  have hsalt := h.run_salt
  rw [if_pos hn] at hsalt
  rw [hcount]
  exact (hsalt.trans fun t h => h.run_pack hn).trans fun t h => h.run_finish

/-- Above 16 bytes: SALT, the bulk folder, and the finalizer. -/
theorem run_bulkPath (h : CommandAt base buf opl .salt 0 [] t) (hn : 16 < buf.length) :
    RunsTo (uopCount buf.length opl) t (CommandAt base buf opl .idle (32 * q32 buf.length + 16 * q16 buf.length)
      (accessList base buf.length)) := by
  have hcount : uopCount buf.length opl = 1 + (1 + q32 buf.length + if q32 buf.length ≥ 1 then 1 else 0) +
      (q16 buf.length + 1) + (2 + if opl = 1 then 1 else 0) := by
    rw [uopCount, if_neg hn.not_ge]
    ring
  have hsalt := h.run_salt
  rw [if_neg hn.not_ge] at hsalt
  rw [hcount, accessList, if_neg hn.not_ge]
  exact ((hsalt.trans fun t h => h.run_bulkLoop hn).trans fun t h => h.run_bulkEnd hn).trans fun t h => h.run_finish

/-- A command runs from SALT to its end with exactly the reads of its access list. -/
theorem run_reads (h : CommandAt base buf opl .salt 0 [] t) :
    RunsTo (uopCount buf.length opl) t fun t => t.reads = accessList base buf.length := by
  rcases Nat.lt_or_ge 16 buf.length with hn | hn
  · exact (h.run_bulkPath hn).imp fun _ h => h.reads
  · rw [accessList, if_pos hn]
    exact (h.run_shortPath hn).imp fun _ h => h.reads

end CommandAt

end

end Sys2Proof.Machine

namespace Sys2Proof.Proofs

open Sys2Proof Sys2Proof.Machine

/-- Settles O47: the launch latches the window, and the µops read it path by path. -/
theorem commandIssuesItsAccessList : Obligations.CommandIssuesItsAccessList :=
  fun _ _ _ _ hidle hm hsize hbuf hw hs =>
    (commandAt_launch hidle hm hsize hbuf hw hs).trans fun _ h => h.run_reads

end Sys2Proof.Proofs

/-! SUPPORT. The encoded forms of the four formats: which of them decode, the form each decoded instruction has, and what the
step does with a form placed where it takes it from (30_encoding.md R91 to R94, R97 to R99; log 16, 18, 19). -/

namespace Sys2Proof.Machine

variable {s : State} {i : Instr}

/-! ### Decoding after encoding -/

theorem decode_encode (i : Instr) : decode (encode i) = .ok i := by
  cases i <;> rfl

theorem encode_wf (i : Instr) : (encode i).wf = true := by
  cases i <;> rfl

/-! ### Format C -/

theorem decodeCmd_of_wf {w : Word} (h : cmdWordOk w = true) : ∃ i, decodeCmd w = .ok i := by
  obtain ⟨hrsv, hopc⟩ : cmdRsv w = 0 ∧ (cmdOpc w = 1 ∨ cmdOpc w = 2) := by simpa [cmdWordOk] using h
  rcases hopc with hopc | hopc
  · exact ⟨.hash64, by simp [decodeCmd, hrsv, hopc]⟩
  · exact ⟨.hash32, by simp [decodeCmd, hrsv, hopc]⟩

theorem cmdWordOk_of_decodeCmd {w : Word} (h : decodeCmd w = .ok i) : cmdWordOk w = true := by
  rcases decodeCmd_ok h with ⟨rfl, -⟩ | ⟨rfl, -⟩ <;> rfl

theorem encode_of_decodeCmd {w : Word} (h : decodeCmd w = .ok i) : encode i = .cmd w := by
  rcases decodeCmd_ok h with ⟨rfl, rfl⟩ | ⟨rfl, rfl⟩ <;> rfl

/-! ### Format S -/

/-- A size above 16 is a bulk size (30_encoding.md R92, R99). -/
theorem decodeSize_of_gt {n : Word} (h : 16 < n.toNat) : decodeSize n = .error .bulkSize := by
  unfold decodeSize
  split
  case h_18 => rfl
  all_goals omega

/-- One layout per size: the size can be read off the layout (30_encoding.md R92). -/
theorem encode_of_decodeSize {n : Word} (h : decodeSize n = .ok i) : encode i = .size n := by
  unfold decodeSize at h
  split at h
  case h_18 => cases h
  all_goals
    rename_i hn
    cases h
    exact congrArg Encoded.size (BitVec.eq_of_toNat_eq hn.symm)

/-! ### Format U -/

theorem decodeUop_of_wf {c : BitVec 4} (h : uopCodeOk c = true) : ∃ i, decodeUop c = .ok i := by
  obtain ⟨hrange, hpack⟩ : (1 ≤ c.toNat ∧ c.toNat ≤ 10) ∧ c.toNat ≠ 2 := by simpa [uopCodeOk] using h
  unfold decodeUop
  split
  case h_1 | h_3 => omega
  case h_12 => simp_all only [imp_false]; omega
  all_goals exact ⟨_, rfl⟩

theorem encode_of_decodeUop {c : BitVec 4} (h : decodeUop c = .ok i) : encode i = .uop c := by
  unfold decodeUop at h
  split at h
  case h_1 | h_3 | h_12 => cases h
  all_goals
    rename_i hc
    cases h
    exact congrArg Encoded.uop (BitVec.eq_of_toNat_eq hc.symm)

/-- A code that names a µop by itself is that of a value of `UPC`, and the sequencer decodes that code whatever `N` is. -/
theorem ofCode_of_decodeUop {c : BitVec 4} (h : decodeUop c = .ok i) :
    ∃ u, Upc.ofCode c = some u ∧ ∀ n, coreEncoding u n = .uop c := by
  unfold decodeUop at h
  split at h
  case h_1 | h_3 | h_12 => cases h
  all_goals
    rename_i hc
    exact ⟨_, by rw [Upc.ofCode, hc]; rfl, fun n => by exact congrArg Encoded.uop (BitVec.eq_of_toNat_eq hc.symm)⟩

/-! ### Format P -/

theorem decodePrim_of_wf {u : BitVec 3} {a b : Word} (h : primOk u b = true) : ∃ i, decodePrim u a b = .ok i := by
  obtain ⟨hu, -⟩ : u.toNat ≤ 5 ∧ (4 ≤ u.toNat ∨ b = 0) := by simpa [primOk] using h
  unfold decodePrim
  split
  case h_7 => simp_all only [imp_false]; omega
  all_goals exact ⟨_, rfl⟩

/-- A reader has no second operand to lose (41_byte_readers.md R134). -/
theorem encode_of_decodePrim {u : BitVec 3} {a b : Word} (hwf : primOk u b = true) (h : decodePrim u a b = .ok i) :
    encode i = .prim u a b := by
  obtain ⟨-, hb⟩ : u.toNat ≤ 5 ∧ (4 ≤ u.toNat ∨ b = 0) := by simpa [primOk] using hwf
  unfold decodePrim at h
  split at h
  case h_7 => cases h
  case h_5 | h_6 =>
    rename_i hu
    cases h
    exact congrArg (Encoded.prim · a b) (BitVec.eq_of_toNat_eq hu.symm)
  all_goals
    rename_i hu
    cases h
    obtain rfl : b = 0 := hb.resolve_left (by omega)
    exact congrArg (Encoded.prim · a 0) (BitVec.eq_of_toNat_eq hu.symm)

/-! ### The four formats -/

theorem decode_of_wf {e : Encoded} (h : e.wf = true) : ∃ i, decode e = .ok i := by
  cases e with
  | cmd w => exact decodeCmd_of_wf h
  | size n => exact decodeSize_of_le (of_decide_eq_true h)
  | uop c => exact decodeUop_of_wf h
  | prim u a b => exact decodePrim_of_wf h

theorem encode_of_decode {e : Encoded} (hwf : e.wf = true) (h : decode e = .ok i) : encode i = e := by
  cases e with
  | cmd w => exact encode_of_decodeCmd h
  | size n => exact encode_of_decodeSize h
  | uop c => exact encode_of_decodeUop h
  | prim u a b => exact encode_of_decodePrim hwf h

/-! ### A form placed where the step takes it from -/

/-- The core moves next, and the queue behind its turn is the one before. -/
theorem step_coreNext (s : State) : step { s with turns := coreNext s.turns } = coreTurn s := by
  cases hs : s.turns with
  | nil =>
    have hsame : ({ s with turns := coreNext [] } : State) = s := by rw [coreNext, ← hs]
    rw [hsame, step_of_noTurns hs]
  | cons x rest =>
    rw [step_core rfl, State.takeTurn_of_turns rfl, ← hs]

theorem step_placeEncoded_cmd {w : Word} (h : decode (.cmd w) = .ok i) :
    step (placeEncoded (.cmd w) s) = exec i s := by
  rw [placeEncoded, step_host rfl, State.takeTurn_of_turns rfl, hostTurn, writeTurn, h]

theorem step_placeEncoded_prim {u : BitVec 3} {a b : Word} (h : decode (.prim u a b) = .ok i) :
    step (placeEncoded (.prim u a b) s) = exec i s := by
  rw [placeEncoded, step_prim rfl, State.takeTurn_of_turns rfl, primTurn, h]

theorem step_placeEncoded_size {n : Word} (h : decode (.size n) = .ok i) :
    step (placeEncoded (.size n) s) = exec i { s with upc := .pack, rN := n } :=
  (step_coreNext { s with upc := .pack, rN := n }).trans (coreTurn_pack rfl h)

theorem step_placeEncoded_uop {c : BitVec 4} (h : decode (.uop c) = .ok i) :
    ∃ u, step (placeEncoded (.uop c) s) = exec i { s with upc := u } := by
  obtain ⟨u, hu, henc⟩ := ofCode_of_decodeUop h
  have hplace : placeEncoded (.uop c) s = { s with upc := u, turns := coreNext s.turns } := by
    rw [placeEncoded, hu]
  refine ⟨u, ?_⟩
  rw [hplace, step_coreNext { s with upc := u }, coreTurn, henc, h]

/-- A form that decodes, once placed, is what the next step runs; placing it has touched `UPC` and `N` at most. -/
theorem step_placeEncoded {e : Encoded} (h : decode e = .ok i) :
    ∃ u n, step (placeEncoded e s) = exec i { s with upc := u, rN := n } := by
  cases e with
  | cmd w => exact ⟨s.upc, s.rN, step_placeEncoded_cmd h⟩
  | size n => exact ⟨.pack, n, step_placeEncoded_size h⟩
  | uop c =>
    obtain ⟨u, hu⟩ := step_placeEncoded_uop (s := s) h
    exact ⟨u, s.rN, hu⟩
  | prim u a b => exact ⟨s.upc, s.rN, step_placeEncoded_prim h⟩

/-- A table word is read by way of the form it stands for. -/
theorem decodeTableWord_eq_some {nbits w : Nat} (h : decodeTableWord nbits w = some i) :
    ∃ e, tableEncoding nbits w = some e ∧ decode e = .ok i := by
  unfold decodeTableWord at h
  split at h
  · rename_i e he
    refine ⟨e, he, ?_⟩
    cases hd : decode e with
    | ok j => rw [hd] at h; exact congrArg Except.ok (Option.some.inj h)
    | error r => rw [hd] at h; cases h
  · cases h

/-- A 64-bit table word that is a command is format C, not a size (log 18). -/
theorem tableEncoding_of_decodeCmd {w : Nat} (h : decode (.cmd (BitVec.ofNat 64 w)) = .ok i) :
    tableEncoding 64 w = some (.cmd (BitVec.ofNat 64 w)) := by
  rw [tableEncoding, if_pos (cmdWordOk_of_decodeCmd h)]

theorem State.withFetchWord_of_tableEncoding {nbits w : Nat} {e : Encoded} (h : tableEncoding nbits w = some e)
    (s : State) : s.withFetchWord nbits w = placeEncoded e s := by
  rw [State.withFetchWord, h]

end Sys2Proof.Machine

namespace Sys2Proof.Proofs

open Sys2Proof Sys2Proof.Machine

/-- Settles O1, format by format. -/
theorem everyFormStandsForItsInstruction : Obligations.EveryFormStandsForItsInstruction :=
  ⟨fun i => ⟨decode_encode i, encode_wf i⟩, fun _ => decode_of_wf, fun _ _ => encode_of_decode⟩

/-- Settles O3: the table of sizes, read in both directions, and the branch of SALT. -/
theorem sizeSelectsTheLayout : Obligations.SizeSelectsTheLayout := by
  refine ⟨⟨rfl, rfl, rfl, rfl, rfl, rfl, rfl, rfl, rfl, rfl, rfl, rfl, rfl, rfl, rfl, rfl, rfl⟩, fun n hn i h => ?bulk,
    fun _ _ => encode_of_decodeSize, fun s t h => ?salt⟩
  case bulk =>
    rw [decode, decodeSize_of_gt hn] at h
    cases h
  case salt =>
    obtain rfl := Host.Outcome.next.inj h
    exact ⟨fun hn => if_neg hn.not_ge, fun hn => if_pos hn⟩

/-- Settles O4: the words that decode are 1 and 2, and both have the fields of a valid command. -/
theorem invalidCommandWordIsIgnored : Obligations.InvalidCommandWordIsIgnored := by
  intro s w rest hs hinvalid
  rw [step_host hs, State.takeTurn_of_turns hs, hostTurn, writeTurn]
  cases hd : decode (.cmd w) with
  | error r => rfl
  | ok i =>
    rcases decodeCmd_ok hd with ⟨rfl, -⟩ | ⟨rfl, -⟩
    · exact absurd (by decide) hinvalid
    · exact absurd (by decide) hinvalid

/-- Settles O6. A command word is placed in the queue alone; any other word by the form it stands for. -/
theorem placedTableWordIsRun : Obligations.PlacedTableWordIsRun := by
  intro s nbits w i h
  by_cases hcmd : nbits = 64 ∧ decode (.cmd (BitVec.ofNat 64 w)) = .ok i
  · obtain ⟨rfl, hd⟩ := hcmd
    refine ⟨s.upc, s.rN, ?_, fun _ _ _ _ => ⟨rfl, rfl⟩⟩
    rw [State.withFetchWord_of_tableEncoding (tableEncoding_of_decodeCmd hd)]
    exact step_placeEncoded_cmd hd
  · obtain ⟨e, he, hd⟩ := decodeTableWord_eq_some h
    obtain ⟨u, n, hrun⟩ := step_placeEncoded (s := s) hd
    refine ⟨u, n, ?_, fun hbits c hc hd => absurd ⟨hbits, hc ▸ hd⟩ hcmd⟩
    rw [State.withFetchWord_of_tableEncoding he, hrun]

/-- Settles O2, by evaluation of the decoder on the written-out words. -/
theorem writtenOutWordsDecode : Obligations.WrittenOutWordsDecode :=
  ⟨rfl, rfl, rfl, rfl, rfl, rfl, rfl, rfl⟩

/-- Settles O59: neither code decodes. -/
theorem unreachableCodesAreRefused : Obligations.UnreachableCodesAreRefused := by
  refine ⟨fun s hs hu hn => ?_, fun s a b rest hs => ?_⟩
  · rw [step_of_noTurns hs]
    exact coreTurn_pack_error hu (decodeSize_of_gt hn)
  · rcases hs with hs | hs
    · rw [step_prim hs]; rfl
    · rw [step_prim hs]; rfl

end Sys2Proof.Proofs

/-! SUPPORT. The multiply-mix primitive: the bound on the high half, the composition from partial products,
the halves of the corner cases, and the next states of MUM and MIX (40_mix.md R120 to R126). -/

namespace Sys2Proof.Machine

variable {a b lo hi : Word}

/-! ### The halves of the product -/

/-- The largest product is `(2^64 - 1)^2`, whose high half is `2^64 - 2`. -/
theorem mul128_snd_le (a b : Word) : (mul128 a b).2.toNat ≤ 2 ^ 64 - 2 := by
  have hp : a.toNat * b.toNat ≤ (2 ^ 64 - 1) * (2 ^ 64 - 1) :=
    Nat.mul_le_mul (Nat.le_sub_one_of_lt a.isLt) (Nat.le_sub_one_of_lt b.isLt)
  rw [mul128_snd_toNat]
  omega

/-- Any split of the product at bit 64 gives its two halves. -/
theorem mul128_toNat_of_split {h l : Nat} (hp : a.toNat * b.toNat = h * 2 ^ 64 + l) (hl : l < 2 ^ 64) :
    (mul128 a b).1.toNat = l ∧ (mul128 a b).2.toNat = h := by
  rw [mul128_fst_toNat, mul128_snd_toNat]
  omega

/-! ### Partial products (40_mix.md R126) -/

theorem mul_eq_partialProducts (x y : Nat) :
    x * y = x / 2 ^ 32 * (y / 2 ^ 32) * 2 ^ 64 + (x % 2 ^ 32 * (y / 2 ^ 32) + x / 2 ^ 32 * (y % 2 ^ 32)) * 2 ^ 32 +
      x % 2 ^ 32 * (y % 2 ^ 32) := by
  calc x * y = (x % 2 ^ 32 + 2 ^ 32 * (x / 2 ^ 32)) * (y % 2 ^ 32 + 2 ^ 32 * (y / 2 ^ 32)) := by
        rw [Nat.mod_add_div, Nat.mod_add_div]
    _ = _ := by ring

/-- The columns of 32 bits, the middle one carrying into the high half. -/
theorem partialProducts_eq_columns {ll lh hl hh mid : Nat} (hmid : mid = ll / 2 ^ 32 + lh % 2 ^ 32 + hl % 2 ^ 32) :
    hh * 2 ^ 64 + (lh + hl) * 2 ^ 32 + ll =
      (hh + lh / 2 ^ 32 + hl / 2 ^ 32 + mid / 2 ^ 32) * 2 ^ 64 + (mid % 2 ^ 32 * 2 ^ 32 + ll % 2 ^ 32) := by
  omega

/-- The middle column adds three numbers of 32 bits. -/
theorem middleColumn_lt {x y : Nat} (hx : x < 2 ^ 32) (hy : y < 2 ^ 32) (lh hl : Nat) :
    x * y / 2 ^ 32 + lh % 2 ^ 32 + hl % 2 ^ 32 < 2 ^ 34 := by
  have hxy : x * y < 2 ^ 32 * 2 ^ 32 := Nat.mul_lt_mul'' hx hy
  omega

/-! ### Corner cases of the product -/

@[simp] theorem mul128_zero_left (b : Word) : mul128 0 b = (0, 0) := by
  rw [mul128_eq_of_lt (by simp), zero_mul]

@[simp] theorem mul128_zero_right (a : Word) : mul128 a 0 = (0, 0) := by
  rw [mul128_comm, mul128_zero_left]

@[simp] theorem mul128_one_left (b : Word) : mul128 1 b = (b, 0) := by
  have hb : (1 : Word).toNat * b.toNat < 2 ^ 64 := by simpa using b.isLt
  rw [mul128_eq_of_lt hb, one_mul]

/-! ### The folded product (40_mix.md R123) -/

theorem mixVal_of_mul128 (h : mul128 a b = (lo, hi)) : mixVal a b = lo ^^^ hi := by
  rw [mixVal, h]

theorem mixVal_comm (a b : Word) : mixVal a b = mixVal b a := by
  rw [mixVal, mul128_comm, mixVal]

@[simp] theorem mixVal_zero_left (b : Word) : mixVal 0 b = 0 := mixVal_of_mul128 (mul128_zero_left b)

@[simp] theorem mixVal_one_left (b : Word) : mixVal 1 b = b :=
  (mixVal_of_mul128 (mul128_one_left b)).trans BitVec.xor_zero

/-- A product that fits 64 bits has no high half to fold in. -/
theorem mixVal_eq_mul_of_lt (h : a.toNat * b.toNat < 2 ^ 64) : mixVal a b = a * b :=
  (mixVal_of_mul128 (mul128_eq_of_lt h)).trans BitVec.xor_zero

/-! ### The two operations (40_mix.md R121, R122) -/

theorem exec_mum (a b : Word) (s : State) :
    exec (.mum a b) s = .next { s with rMA := (mul128 a b).1, rMB := (mul128 a b).2 } := rfl

theorem exec_mix (a b : Word) (s : State) :
    exec (.mix a b) s = .next { s with rMA := (mul128 a b).1, rMB := (mul128 a b).2, ret := mixVal a b } := rfl

theorem exec_mum_of_mul128 (h : mul128 a b = (lo, hi)) (s : State) :
    exec (.mum a b) s = .next { s with rMA := lo, rMB := hi } := by
  rw [exec_mum, h]

end Sys2Proof.Machine

namespace Sys2Proof.Proofs

open Sys2Proof Sys2Proof.Machine

/-- Settles O23: the product is the sum of its partial products, and the columns split that sum at bit 64. -/
theorem partialProductsComposeTheProduct : Obligations.PartialProductsComposeTheProduct := by
  intro a b al ah bl bh mid
  have hsplit := (mul_eq_partialProducts a.toNat b.toNat).trans
    (partialProducts_eq_columns (hh := ah * bh) (show mid = _ from rfl))
  obtain ⟨hlo, hhi⟩ := mul128_toNat_of_split hsplit (by omega)
  exact ⟨hlo, hhi, middleColumn_lt (Nat.mod_lt _ (by decide)) (Nat.mod_lt _ (by decide)) _ _⟩

/-- Settles O19. Quotient and remainder by `2^64` make up the product. -/
theorem productIsExact : Obligations.ProductIsExact := by
  refine fun a b => ⟨mul128_fst_toNat a b, mul128_snd_toNat a b, ?_, mul128_snd_le a b⟩
  rw [mul128_fst_toNat, mul128_snd_toNat, Nat.mod_add_div]

/-- Settles O20: MUM's next state by the halves of the product, which the corner cases name. -/
theorem mumLeavesBothHalves : Obligations.MumLeavesBothHalves :=
  ⟨fun a b s => ⟨_, _, exec_mum a b s, mul128_fst_toNat a b, mul128_snd_toNat a b⟩,
    fun b s => ⟨exec_mum_of_mul128 (mul128_zero_left b) s, exec_mum_of_mul128 (mul128_zero_right b) s,
      exec_mum_of_mul128 (mul128_one_left b) s⟩,
    fun s => ⟨exec_mum_of_mul128 (by decide) s, exec_mum_of_mul128 (by decide) s⟩,
    fun a b => decode_encode (.mum a b)⟩

/-- Settles O21: MIX returns the fold of the halves that it leaves. -/
theorem mixReturnsTheFoldedProduct : Obligations.MixReturnsTheFoldedProduct := by
  have hexample : mul128 0x0123456789ABCDEF 0xFEDCBA9876543210 = (0x2236D88FE5618CF0, 0x0121FA00AD77D742) := by decide
  exact ⟨fun a b => decode_encode (.mix a b),
    fun a b s => ⟨_, _, exec_mix a b s, mul128_fst_toNat a b, mul128_snd_toNat a b⟩,
    hexample, (mixVal_of_mul128 hexample).trans (by decide)⟩

/-- Settles O22. The corner values are evaluated; MIX is not injective because 0 absorbs. -/
theorem lawsOfMix : Obligations.LawsOfMix := by
  refine ⟨mixVal_comm, mixVal_zero_left, mixVal_one_left, fun a b h => ?small,
    by decide, by decide, by decide, by decide, by decide, 0, 1, by decide, ?collide⟩
  case small => rw [mixVal_eq_mul_of_lt h, BitVec.toNat_mul, Nat.mod_eq_of_lt h]
  case collide => rw [mixVal_zero_left, mixVal_zero_left]

end Sys2Proof.Proofs

/-! SUPPORT. What each reader returns, put together from its half-width reads, and its range (41_byte_readers.md R130 to
R134, 20_memory.md R62). -/

namespace Sys2Proof.Machine

variable {m : Memory} {a v : Word} {b0 b1 b2 b3 b4 b5 b6 b7 : Byte}

theorem rd_w1_of_byte (h0 : m.byteAt a.toNat = some b0) : rd m .w1 a = some (b0.zeroExtend 64) := by
  simp [rd, ReadWidth.bytes, memRead, h0, le]

/-- Two neighbouring reads make the read of twice their width, the upper value above the lower. -/
theorem rd_of_halves {w h : ReadWidth} {x y : Word} (hw : ReadWidth.bytes w = ReadWidth.bytes h + ReadWidth.bytes h)
    (hx : rd m h a = some x) (hy : rd m h (a + BitVec.ofNat 64 (ReadWidth.bytes h)) = some y) :
    rd m w a = some (x ||| (y <<< (8 * ReadWidth.bytes h))) := by
  rw [rd_eq_halves m a hw, hx, Option.bind_some, hy, Option.map_some]

theorem rd_w2_of_bytes (h0 : m.byteAt a.toNat = some b0) (h1 : m.byteAt (a + 1).toNat = some b1) :
    rd m .w2 a = some (b0.zeroExtend 64 ||| (b1.zeroExtend 64 <<< 8)) :=
  rd_of_halves (h := .w1) rfl (rd_w1_of_byte h0) (rd_w1_of_byte h1)

theorem rd_w4_of_bytes (h0 : m.byteAt a.toNat = some b0) (h1 : m.byteAt (a + 1).toNat = some b1)
    (h2 : m.byteAt (a + 2).toNat = some b2) (h3 : m.byteAt (a + 3).toNat = some b3) :
    rd m .w4 a = some (b0.zeroExtend 64 ||| (b1.zeroExtend 64 <<< 8) ||| (b2.zeroExtend 64 <<< 16) |||
      (b3.zeroExtend 64 <<< 24)) := by
  have hupper := rd_w2_of_bytes (a := a + 2) h2 (by rwa [BitVec.add_assoc])
  rw [rd_of_halves rfl (rd_w2_of_bytes h0 h1) hupper]
  simp only [ReadWidth.bytes, BitVec.shiftLeft_or_distrib, ← BitVec.shiftLeft_add, BitVec.or_assoc]

theorem rd_w8_of_bytes (h0 : m.byteAt a.toNat = some b0) (h1 : m.byteAt (a + 1).toNat = some b1)
    (h2 : m.byteAt (a + 2).toNat = some b2) (h3 : m.byteAt (a + 3).toNat = some b3)
    (h4 : m.byteAt (a + 4).toNat = some b4) (h5 : m.byteAt (a + 5).toNat = some b5)
    (h6 : m.byteAt (a + 6).toNat = some b6) (h7 : m.byteAt (a + 7).toNat = some b7) :
    rd m .w8 a = some (b0.zeroExtend 64 ||| (b1.zeroExtend 64 <<< 8) ||| (b2.zeroExtend 64 <<< 16) |||
      (b3.zeroExtend 64 <<< 24) ||| (b4.zeroExtend 64 <<< 32) ||| (b5.zeroExtend 64 <<< 40) |||
      (b6.zeroExtend 64 <<< 48) ||| (b7.zeroExtend 64 <<< 56)) := by
  have hupper := rd_w4_of_bytes (a := a + 4) h4 (by rwa [BitVec.add_assoc]) (by rwa [BitVec.add_assoc])
    (by rwa [BitVec.add_assoc])
  rw [rd_of_halves rfl (rd_w4_of_bytes h0 h1 h2 h3) hupper]
  simp only [ReadWidth.bytes, BitVec.shiftLeft_or_distrib, ← BitVec.shiftLeft_add, BitVec.or_assoc]

/-- A reader zero-extends: its value fits the bytes that it reads. -/
theorem rd_lt {w : ReadWidth} (h : rd m w a = some v) : v.toNat < 256 ^ ReadWidth.bytes w := by
  obtain ⟨bs, hbs, rfl⟩ := Option.map_eq_some_iff.1 h
  have hlen := memRead_length hbs
  exact hlen ▸ le_lt (hlen ▸ ReadWidth.bytes_le_eight w)

end Sys2Proof.Machine

namespace Sys2Proof.Proofs

open Sys2Proof Sys2Proof.Machine

/-- Settles O16. The worked examples are reads inside the rules' nine-byte buffer. -/
theorem readerValues : Obligations.ReaderValues := by
  refine ⟨fun m a b0 b1 b2 b3 b4 b5 b6 b7 =>
      ⟨rd_w1_of_byte, rd_w2_of_bytes, rd_w4_of_bytes, rd_w8_of_bytes⟩,
    fun m w a v => rd_lt,
    fun a => ⟨decode_encode (.rd1 a), decode_encode (.rd2 a), decode_encode (.rd4 a), decode_encode (.rd8 a)⟩,
    fun m hbuf => ?examples, fun m a => rd_w1_of_byte⟩
  case examples =>
    have hrd (w : ReadWidth) (o : Nat) := rd_holdsAt hbuf (o := o) (w := w)
    exact ⟨hrd .w1 2 (by decide), hrd .w2 1 (by decide), hrd .w4 0 (by decide), hrd .w4 3 (by decide),
      hrd .w8 0 (by decide), hrd .w8 1 (by decide)⟩

/-- Settles O17: each of the four is the one reader at its width. -/
theorem readersCompleteOnReadableBytes : Obligations.ReadersCompleteOnReadableBytes :=
  fun _ _ _ => ⟨reader_of_rd, reader_of_rd, reader_of_rd, reader_of_rd⟩

end Sys2Proof.Proofs

/-! SUPPORT. What a layout puts into the lanes of a buffer that stands at `P`: the little-endian values of its head and of
its remainder (42_short_dispatch.md R141 to R158). -/

namespace Sys2Proof.Machine

variable {s : State} {i : Instr} {m : Memory} {base : Word}

/-! ### The lanes of a layout -/

@[simp] theorem State.logReads_nil (s : State) : s.logReads [] = s := by
  simp [State.logReads]

theorem headWidth_of_le_eight {n : Nat} (h3 : 3 < n) (h8 : n ≤ 8) : headWidth n = 4 := by
  rw [headWidth, if_neg h3.not_ge, if_pos h8]

theorem headWidth_of_gt_eight {n : Nat} (h : 8 < n) : headWidth n = 8 := by
  rw [headWidth, if_neg (by omega), if_neg h.not_ge]

/-- A lane of one term at the base is the value of the first bytes. -/
theorem lane_first {buf : List Byte} (h : HoldsAt m base buf) {w : ReadWidth} (hw : ReadWidth.bytes w ≤ buf.length) :
    lane m base [⟨w, 0, 0⟩] = some (le (buf.take (ReadWidth.bytes w))) := by
  rw [lane_cons (q := ⟨w, 0, 0⟩) (rd_holdsAt h (o := 0) ((Nat.zero_add _).trans_le hw)) (lane_nil m base)]
  simp

/-- The terms of the head assemble the head of the buffer. Only at size 3 are there two of them: a pair of bytes, and the
byte above it. -/
theorem lane_headPieces {buf : List Byte} (h : HoldsAt m base buf) :
    lane m base (headPieces buf.length) = some (le (buf.take (headWidth buf.length))) := by
  unfold headPieces
  split_ifs with h0 h1 h2 h3 h8
  · rw [h0]
    rfl
  · rw [h1]
    exact lane_first h (w := .w1) h1.ge
  · rw [h2]
    exact lane_first h (w := .w2) h2.ge
  · have hlow := rd_holdsAt h (o := 0) (w := .w2) ((Nat.le_succ 2).trans h3.ge)
    have hhigh := rd_holdsAt h (o := 2) (w := .w1) h3.ge
    rw [lane_cons (q := ⟨.w2, 0, 0⟩) hlow (lane_cons (q := ⟨.w1, 2, 16⟩) hhigh (lane_nil m base))]
    obtain ⟨b0, b1, b2, rfl⟩ := List.length_eq_three.1 h3
    simpa [headWidth, ReadWidth.bytes] using (le_append [b0, b1] [b2]).symm
  · rw [headWidth_of_le_eight (by omega) h8]
    exact lane_first h (w := .w4) (by simp only [ReadWidth.bytes]; omega)
  · rw [headWidth_of_gt_eight (by omega)]
    exact lane_first h (w := .w8) (by simp only [ReadWidth.bytes]; omega)

/-- The terms of the remainder assemble what follows the head, from byte position 0. -/
theorem lane_remainderPieces {buf : List Byte} (h : HoldsAt m base buf) :
    lane m base (remainderPieces buf.length) = some (le (buf.drop (headWidth buf.length))) := by
  have hle := headWidth_le buf.length
  rw [remainderPieces, lane_bytePieces h _ _ _ (by omega), List.take_of_length_le (by simp)]
  simp

/-- The layout of the buffer's size fills the lanes with `PACK` of the buffer (42_short_dispatch.md R141). -/
theorem exec_layout_packLanes {n : Word} {buf : List Byte} (hdec : decodeSize n = .ok i) (hlen : buf.length = n.toNat)
    (hbuf : HoldsAt s.mem s.rP buf) :
    exec i s = .next (((s.setLanes (packLanes buf).1 (packLanes buf).2).logReads (shortReads s.rP n.toNat)).goto .fin) := by
  rw [(exec_layout_eq_pieces hdec).2, ← hlen, packWith_of_lanes (lane_headPieces hbuf) (lane_remainderPieces hbuf),
    laneReads_pieces, packLanes]

/-- The layout of a buffer that is given as its head and its remainder, with their values. -/
theorem exec_layout_of_split {n x0 x1 : Word} {hd r : List Byte} (hdec : decodeSize n = .ok i)
    (hhead : hd.length = headWidth n.toNat) (hlen : (hd ++ r).length = n.toNat) (hx0 : le hd = x0) (hx1 : le r = x1)
    (hbuf : HoldsAt s.mem s.rP (hd ++ r)) :
    ∃ l, exec i s = .next { s with rX0 := x0, rX1 := x1, upc := .fin, reads := l } := by
  have hlanes : packLanes (hd ++ r) = (x0, x1) := by
    rw [packLanes, hlen, ← hhead, List.take_left, List.drop_left, hx0, hx1]
  rw [exec_layout_packLanes hdec hlen hbuf, hlanes]
  exact ⟨_, rfl⟩

/-! ### The value of a few bytes, each in its own position -/

theorem le_singleton (b0 : Byte) : le [b0] = b0.zeroExtend 64 := by
  simp [le_cons]

theorem le_pair (b0 b1 : Byte) : le [b0, b1] = b0.zeroExtend 64 ||| (b1.zeroExtend 64 <<< 8) := by
  rw [le_cons, le_singleton]

theorem le_triple (b0 b1 b2 : Byte) :
    le [b0, b1, b2] = b0.zeroExtend 64 ||| (b1.zeroExtend 64 <<< 8) ||| (b2.zeroExtend 64 <<< 16) := by
  have h := le_append [b0, b1] [b2]
  rwa [le_pair, le_singleton] at h

theorem le_quadruple (b0 b1 b2 b3 : Byte) :
    le [b0, b1, b2, b3] =
      b0.zeroExtend 64 ||| (b1.zeroExtend 64 <<< 8) ||| (b2.zeroExtend 64 <<< 16) ||| (b3.zeroExtend 64 <<< 24) := by
  have h := le_append [b0, b1, b2] [b3]
  rwa [le_triple, le_singleton] at h

end Sys2Proof.Machine

namespace Sys2Proof.Proofs

open Sys2Proof Sys2Proof.Machine

/-- Settles O24: up to 3 bytes are all head, and the remainder is empty. -/
theorem layoutsForSizes0To3 : Obligations.LayoutsForSizes0To3 := by
  refine ⟨⟨rfl, rfl, rfl, rfl, rfl⟩, fun s b0 b1 b2 => ⟨?none, fun h => ?one, fun h => ?two, fun h => ?three⟩⟩
  case none =>
    have hempty : HoldsAt s.mem s.rP [] := ⟨s.rP.isLt.le, nofun⟩
    have hreads : shortReads s.rP (0 : Word).toNat = [] := rfl
    rw [exec_layout_packLanes (n := 0) rfl rfl hempty, hreads, State.logReads_nil]
    rfl
  case one => exact exec_layout_of_split (n := 1) rfl rfl rfl (le_singleton b0) le_nil h
  case two => exact exec_layout_of_split (n := 2) rfl rfl rfl (le_pair b0 b1) le_nil h
  case three => exact exec_layout_of_split (n := 3) rfl rfl rfl (le_triple b0 b1 b2) le_nil h

/-- Settles O25: each size has the same head of 4 bytes, and a remainder of its own. -/
theorem layoutsForSizes4To8 : Obligations.LayoutsForSizes4To8 := by
  refine ⟨⟨rfl, rfl, rfl, rfl, rfl, rfl⟩, fun s b0 b1 b2 b3 b4 b5 b6 b7 => ?_⟩
  have hhead := le_quadruple b0 b1 b2 b3
  exact ⟨exec_layout_of_split (n := 4) rfl rfl rfl hhead le_nil,
    exec_layout_of_split (n := 5) rfl rfl rfl hhead (le_singleton b4),
    exec_layout_of_split (n := 6) rfl rfl rfl hhead (le_pair b4 b5),
    exec_layout_of_split (n := 7) rfl rfl rfl hhead (le_triple b4 b5 b6),
    exec_layout_of_split (n := 8) rfl rfl rfl hhead (le_quadruple b4 b5 b6 b7)⟩

/-- Settles O26: the eight layouts are the one of a head of 8 bytes and a remainder of 1 to 8, and little-endian assembly
is the sum of the weighted bytes. -/
theorem layoutsForSizes9To16 : Obligations.LayoutsForSizes9To16 := by
  refine ⟨⟨rfl, rfl, rfl, rfl, rfl, rfl, rfl, rfl, rfl⟩, fun s hd r hhd hbuf i hi => ?_⟩
  obtain ⟨n, hn, hpos, hle, hdec⟩ : ∃ n : Word, n.toNat = 8 + r.length ∧ 0 < r.length ∧ r.length ≤ 8 ∧
      decodeSize n = .ok i := by
    refine ⟨BitVec.ofNat 64 (8 + r.length), ?_⟩
    rcases hi with ⟨h, rfl⟩ | ⟨h, rfl⟩ | ⟨h, rfl⟩ | ⟨h, rfl⟩ | ⟨h, rfl⟩ | ⟨h, rfl⟩ | ⟨h, rfl⟩ | ⟨h, rfl⟩ <;>
      rw [h] <;> exact ⟨rfl, by decide, by decide, rfl⟩
  have hhead : hd.length = headWidth n.toNat := by
    rw [hn, hhd, headWidth_of_gt_eight (by omega)]
  have hlen : (hd ++ r).length = n.toNat := by
    rw [hn, List.length_append, hhd]
  obtain ⟨l, hexec⟩ := exec_layout_of_split hdec hhead hlen rfl rfl hbuf
  exact ⟨l, le hd, le r, hexec, le_toNat_eq_sum hhd.le, le_toNat_eq_sum hle⟩

end Sys2Proof.Proofs

/-! SUPPORT. The bulk folder as equations of the registers it writes, and the end of the window that its cursor and its
remaining count keep between them (43_bulk_folder.md R170 to R176). -/

namespace Sys2Proof.Machine

/-! ### The chunks (43_bulk_folder.md R171, R173) -/

section
variable (s : State) (v0 v1 v2 v3 : Word)

/-- The two mixes are independent: the second reads neither `MA`, `MB` nor the accumulator that the first one sets. -/
theorem afterChunk32_eq :
    afterChunk32 s v0 v1 v2 v3 = { s with
      rS0 := mixVal (v0 ^^^ s.k.k2) (v1 ^^^ s.rS0), rS1 := mixVal (v2 ^^^ s.k.k3) (v3 ^^^ s.rS1)
      rP := s.rP + 32, rI := s.rI - 32
      rMA := (mul128 (v2 ^^^ s.k.k3) (v3 ^^^ s.rS1)).1, rMB := (mul128 (v2 ^^^ s.k.k3) (v3 ^^^ s.rS1)).2
      reads := s.reads ++ [⟨.w8, s.cursor 0⟩, ⟨.w8, s.cursor 8⟩, ⟨.w8, s.cursor 16⟩, ⟨.w8, s.cursor 24⟩]
      upc := afterB32 (s.rI - 32) } := by
  simp only [afterChunk32, State.mum, State.mixOut, mixVal, State.setBulk, State.advance, State.logReads, State.goto]

theorem afterChunk16_eq :
    afterChunk16 s v0 v1 = { s with
      rS := mixVal (v0 ^^^ s.k.k1) (v1 ^^^ s.rS)
      rP := s.rP + 16, rI := s.rI - 16
      rMA := (mul128 (v0 ^^^ s.k.k1) (v1 ^^^ s.rS)).1, rMB := (mul128 (v0 ^^^ s.k.k1) (v1 ^^^ s.rS)).2
      reads := s.reads ++ [⟨.w8, s.cursor 0⟩, ⟨.w8, s.cursor 8⟩]
      upc := afterB16 (s.rI - 16) } := by
  simp only [afterChunk16, State.mum, State.mixOut, mixVal, State.setS, State.advance, State.logReads, State.goto]

end

/-- The new count of a chunk that is there does not wrap, so the loop test may be read on the old one. -/
theorem afterB32_sub {i : Word} (h : 32 < i.toNat) :
    afterB32 (i - 32) = if i.toNat - 32 > 32 then .b32 else .bjoin := by
  have hleft : (i - 32).toNat = i.toNat - 32 := BitVec.toNat_sub_of_le h.le
  rw [afterB32, hleft]

theorem afterB16_sub {i : Word} (h : 16 < i.toNat) :
    afterB16 (i - 16) = if i.toNat - 16 > 16 then .b16 else .tail := by
  have hleft : (i - 16).toNat = i.toNat - 16 := BitVec.toNat_sub_of_le h.le
  rw [afterB16, hleft]

theorem State.cursor_zero (s : State) : s.cursor 0 = s.rP := BitVec.add_zero s.rP

/-! ### The end of the window (43_bulk_folder.md R174, R176) -/

theorem State.windowBase_add_rN (s : State) : s.windowBase + s.rN = s.rP + s.rI :=
  BitVec.sub_add_cancel _ _

end Sys2Proof.Machine

namespace Sys2Proof.Proofs

open Sys2Proof Sys2Proof.Machine

/-- Settles O43: a step of the core keeps the window, hence also the window's end, which is `P + I`. -/
theorem windowStaysPut : Obligations.WindowStaysPut := by
  intro s t hi hturns hbusy hstep
  rw [step_of_noTurns hturns] at hstep
  obtain ⟨hbase, hN, -⟩ := hi.coreTurn_readsOn hbusy hstep
  exact ⟨hbase, hN, by rw [← t.windowBase_add_rN, hbase, hN]⟩

/-- Settles O28. BINIT's meaning is the rule's equation. -/
theorem binitCopiesTheSeed : Obligations.BinitCopiesTheSeed :=
  ⟨decode_encode .binit, fun _ => rfl⟩

/-- Settles O29: the chunk at the cursor is folded, and the loop test is on the count that is left. -/
theorem b32FoldsAChunkIntoTheAccumulators : Obligations.B32FoldsAChunkIntoTheAccumulators := by
  refine ⟨decode_encode .b32, fun s w0 w1 w2 w3 hI h0 h1 h2 h3 => ?_⟩
  have hexec : exec .b32 s = .next (afterChunk32 s w0 w1 w2 w3) := execB32_of_rd (s.cursor_zero ▸ h0) h1 h2 h3
  rw [hexec, afterChunk32_eq, afterB32_sub hI]
  exact ⟨_, _, _, rfl⟩

/-- Settles O30. BJOIN's meaning is the rule's equation. -/
theorem bjoinJoinsTheAccumulators : Obligations.BjoinJoinsTheAccumulators :=
  ⟨decode_encode .bjoin, fun _ => rfl⟩

/-- Settles O31: the chunk at the cursor is folded, and the loop test is on the count that is left. -/
theorem b16FoldsAChunkIntoTheSeed : Obligations.B16FoldsAChunkIntoTheSeed := by
  refine ⟨decode_encode .b16, fun s w0 w1 hI h0 h1 => ?_⟩
  have hexec : exec .b16 s = .next (afterChunk16 s w0 w1) := execB16_of_rd (s.cursor_zero ▸ h0) h1
  rw [hexec, afterChunk16_eq, afterB16_sub hI]
  exact ⟨_, _, _, rfl⟩

/-- Settles O32: TAIL reads back from `P + I`, which is the window's end wherever the cursor stands. -/
theorem tailLoadsTheLastSixteenBytes : Obligations.TailLoadsTheLastSixteenBytes := by
  refine ⟨decode_encode .tail, fun s w0 w1 _ _ h0 h1 => ⟨⟨_, execTail_of_rd h0 h1⟩, ?_, ?_⟩⟩ <;>
    rw [s.windowBase_add_rN]

end Sys2Proof.Proofs

/-! SUPPORT. The finalizer: FIN's next state by the formula of R190 with its corner cases, and the fold as a difference of
halves (44_finalizer.md R190, R191, R193). -/

namespace Sys2Proof.Machine

/-! ### FIN (44_finalizer.md R190, R193) -/

/-- Both products go through `MA`, `MB`; the outer one is left there. -/
theorem exec_fin (s : State) : exec .fin s = .next { s with
    rR := finalMix s.k s.rN (s.rX0, s.rX1) s.rS
    rMA := (mul128 (s.k.k1 ^^^ s.rN) (mixVal (s.rX0 ^^^ s.k.k1) (s.rX1 ^^^ s.rS))).1
    rMB := (mul128 (s.k.k1 ^^^ s.rN) (mixVal (s.rX0 ^^^ s.k.k1) (s.rX1 ^^^ s.rS))).2
    upc := afterFin s.rOPL } := rfl

@[simp] theorem mixVal_zero_right (a : Word) : mixVal a 0 = 0 := by
  rw [mixVal_comm, mixVal_zero_left]

section
variable {k : ConstTable} {n x0 x1 v : Word}

theorem finalMix_of_size_eq (lanes : Word × Word) (h : n = k.k1) : finalMix k n lanes v = 0 := by
  rw [finalMix, h, BitVec.xor_self]
  exact mixVal_zero_left _

/-- A zero factor of the inner mix makes it zero, and with it the outer one. -/
theorem finalMix_of_lane_eq (h : x0 = k.k1 ∨ x1 = v) : finalMix k n (x0, x1) v = 0 := by
  have hinner : mixVal (x0 ^^^ k.k1) (x1 ^^^ v) = 0 := by
    rcases h with rfl | rfl
    · rw [BitVec.xor_self]
      exact mixVal_zero_left _
    · rw [BitVec.xor_self]
      exact mixVal_zero_right _
  rw [finalMix, hinner, mixVal_zero_right]

theorem finalMix_of_outer_eq_one (lanes : Word × Word) (h : k.k1 ^^^ n = 1) :
    finalMix k n lanes v = mixVal (lanes.1 ^^^ k.k1) (lanes.2 ^^^ v) := by
  rw [finalMix, h, mixVal_one_left]

end

/-! ### The fold (44_finalizer.md R191) -/

theorem exec_fold32 (s : State) : exec .fold32 s = .next { s with rR := fold32Val s.rR, upc := .ret } := rfl

theorem fold32Val_toNat (r : Word) : (fold32Val r).toNat = (r - (r >>> 32)).toNat % 2 ^ 32 := by
  simp only [fold32Val, BitVec.truncate_eq_setWidth, BitVec.toNat_setWidth]
  omega

/-- The subtraction modulo `2^64` keeps its low half modulo `2^32`, where `r` counts as its low half only. -/
theorem fold32Val_toNat_halves (r : Word) :
    (fold32Val r).toNat = (r.toNat % 2 ^ 32 + (2 ^ 32 - r.toNat / 2 ^ 32)) % 2 ^ 32 := by
  have hhigh : (r >>> 32).toNat = r.toNat / 2 ^ 32 := by
    rw [BitVec.toNat_ushiftRight, Nat.shiftRight_eq_div_pow]
  rw [fold32Val_toNat, BitVec.toNat_sub, hhigh]
  omega

theorem fold32Val_of_lt {r : Word} (h : r.toNat < 2 ^ 32) : fold32Val r = r := by
  apply BitVec.eq_of_toNat_eq
  rw [fold32Val_toNat_halves]
  omega

theorem fold32Val_of_halves_eq {r : Word} (h : r.toNat % 2 ^ 32 = r.toNat / 2 ^ 32) : fold32Val r = 0 := by
  apply BitVec.eq_of_toNat_eq
  have hzero : (0 : Word).toNat = 0 := rfl
  rw [fold32Val_toNat_halves]
  omega

end Sys2Proof.Machine

namespace Sys2Proof.Proofs

open Sys2Proof Sys2Proof.Machine

/-- Settles O33, by FIN's next state; the pair holds the outer product. -/
theorem finIsTwoNestedMixes : Obligations.FinIsTwoNestedMixes :=
  ⟨decode_encode .fin, fun s => ⟨_, _, exec_fin s⟩⟩

/-- Settles O34: a zero factor makes either mix zero, and a factor of 1 makes the outer one the identity. -/
theorem cornerCasesOfFin : Obligations.CornerCasesOfFin := by
  intro s t h
  obtain rfl := Host.Outcome.next.inj ((exec_fin s).symm.trans h)
  exact ⟨finalMix_of_size_eq _, finalMix_of_lane_eq, finalMix_of_outer_eq_one _⟩

/-- Settles O35, by the fold as a difference of halves; the worked values are evaluated. -/
theorem fold32SubtractsTheHighHalf : Obligations.Fold32SubtractsTheHighHalf := by
  refine ⟨decode_encode .fold32, fun s => ⟨_, exec_fold32 s, rfl, fold32Val_toNat_halves _, fold32Val_of_lt,
    fold32Val_of_halves_eq⟩, fun s t h => ?_⟩
  obtain rfl := Host.Outcome.next.inj ((exec_fold32 s).symm.trans h)
  have hvalue {r v : Word} (hv : fold32Val r = v) (hr : s.rR = r) : fold32Val s.rR = v := hr ▸ hv
  exact ⟨hvalue (by decide), hvalue (by decide), hvalue (by decide), hvalue (by decide)⟩

end Sys2Proof.Proofs

/-! SUPPORT. The course that HASH64 and HASH32 share: FIN reads the latched operation first, so up to there a run of the one is
a run of the other, and from there HASH32 takes FOLD32 more (44_finalizer.md R192, 45_commands.md R205). -/

namespace Sys2Proof.Machine

variable {s t : State} {i : Instr}

/-! ### What reads the latched operation -/

/-- The block with another latched operation. -/
def State.setOpl (o : BitVec 1) (s : State) : State := { s with rOPL := o }

/-- The values of `UPC` from the launch up to FIN. -/
def untilFin : Upc → Bool
  | .salt | .pack | .binit | .b32 | .bjoin | .b16 | .tail | .fin => true
  | .idle | .fold32 | .ret => false

@[simp] theorem untilFin_afterSalt (n : Word) : untilFin (afterSalt n) = true := by
  unfold afterSalt; split <;> rfl

@[simp] theorem untilFin_afterBinit (n : Word) : untilFin (afterBinit n) = true := by
  unfold afterBinit; split_ifs <;> rfl

@[simp] theorem untilFin_afterB32 (n : Word) : untilFin (afterB32 n) = true := by
  unfold afterB32; split <;> rfl

@[simp] theorem untilFin_afterBjoin (n : Word) : untilFin (afterBjoin n) = true := by
  unfold afterBjoin; split <;> rfl

@[simp] theorem untilFin_afterB16 (n : Word) : untilFin (afterB16 n) = true := by
  unfold afterB16; split <;> rfl

theorem packWith_setOpl {l0 l1 : List Piece} (o : BitVec 1) (h : packWith l0 l1 s = .next t) :
    packWith l0 l1 (s.setOpl o) = .next (t.setOpl o) := by
  obtain ⟨x0, x1, h0, h1, rfl⟩ := packWith_next h
  exact packWith_of_lanes (s := s.setOpl o) h0 h1

theorem afterChunk32_setOpl (o : BitVec 1) (v0 v1 v2 v3 : Word) :
    afterChunk32 (s.setOpl o) v0 v1 v2 v3 = (afterChunk32 s v0 v1 v2 v3).setOpl o := rfl

theorem afterChunk16_setOpl (o : BitVec 1) (v0 v1 : Word) :
    afterChunk16 (s.setOpl o) v0 v1 = (afterChunk16 s v0 v1).setOpl o := rfl

/-- Of the µops up to FIN, only FIN reads the latched operation. -/
theorem exec_setOpl (o : BitVec 1) (hu : uopOf i = some s.upc) (hbefore : untilFin s.upc = true) (hfin : s.upc ≠ .fin)
    (h : exec i s = .next t) :
    exec i (s.setOpl o) = .next (t.setOpl o) ∧ t.rOPL = s.rOPL ∧ untilFin t.upc = true := by
  cases i with
  | salt | binit | bjoin => obtain rfl := Host.Outcome.next.inj h; exact ⟨rfl, by simp⟩
  | pack0 | pack1 | pack2 | pack3 | pack4 | pack5 | pack6 | pack7 | pack8 | pack9 | pack10 | pack11 | pack12 | pack13
  | pack14 | pack15 | pack16 =>
    obtain ⟨x0, x1, l, ht⟩ := exec_layout_next rfl h
    rw [exec] at h ⊢
    exact ⟨packWith_setOpl o h, by simp [ht, untilFin]⟩
  | b32 =>
    obtain ⟨v0, v1, v2, v3, h0, h1, h2, h3, rfl⟩ := execB32_next h
    have hexec := execB32_of_rd (s := s.setOpl o) h0 h1 h2 h3
    rw [afterChunk32_setOpl] at hexec
    exact ⟨hexec, by simp⟩
  | b16 =>
    obtain ⟨v0, v1, h0, h1, rfl⟩ := execB16_next h
    have hexec := execB16_of_rd (s := s.setOpl o) h0 h1
    rw [afterChunk16_setOpl] at hexec
    exact ⟨hexec, by simp⟩
  | tail =>
    obtain ⟨v0, v1, h0, h1, rfl⟩ := execTail_next h
    exact ⟨execTail_of_rd (s := s.setOpl o) h0 h1, by simp [untilFin]⟩
  | fin => exact absurd (Option.some.inj hu).symm hfin
  | fold32 | ret => rw [← Option.some.inj hu] at hbefore; cases hbefore
  | hash64 | hash32 | rd1 | rd2 | rd4 | rd8 | mum | mix => cases hu

/-! ### The shared course (44_finalizer.md R192) -/

theorem coreTurn_of_decode (h : decode (coreEncoding s.upc s.rN) = .ok i) : coreTurn s = exec i s := by
  rw [coreTurn, h]

/-- Up to FIN a turn of the core that completes has run an operation. -/
theorem coreTurn_untilFin (hbefore : untilFin s.upc = true) (h : coreTurn s = .next t) :
    ∃ i, decode (coreEncoding s.upc s.rN) = .ok i ∧ exec i s = .next t := by
  cases hd : decode (coreEncoding s.upc s.rN) with
  | ok i => exact ⟨i, rfl, (coreTurn_of_decode hd).symm.trans h⟩
  | error r =>
    cases hu : s.upc with
    | pack =>
      rw [hu] at hd
      rw [coreTurn_pack_error hu hd] at h
      cases h
    | idle | fold32 | ret => rw [hu] at hbefore; cases hbefore
    | salt | binit | b32 | bjoin | b16 | tail | fin => rw [hu] at hd; cases hd

/-- The core alone moves, up to FIN, with the operation `o` latched. -/
structure Hashing (o : BitVec 1) (s : State) : Prop where
  turns : s.turns = []
  rOPL : s.rOPL = o
  upc : untilFin s.upc = true

variable {o p : BitVec 1}

theorem Hashing.setOpl (h : Hashing o s) (p : BitVec 1) : Hashing p (s.setOpl p) :=
  ⟨h.turns, rfl, h.upc⟩

/-- Before FIN the core's step is the same whatever operation is latched. -/
theorem Hashing.step_setOpl (h : Hashing o s) (hfin : s.upc ≠ .fin) (hstep : step s = .next t) (p : BitVec 1) :
    step (s.setOpl p) = .next (t.setOpl p) ∧ Hashing o t := by
  rw [step_of_noTurns h.turns] at hstep
  obtain ⟨i, hd, hexec⟩ := coreTurn_untilFin h.upc hstep
  obtain ⟨hexec', hopl, hupc⟩ := exec_setOpl p (uopOf_decode_coreEncoding hd) h.upc hfin hexec
  rw [step_of_noTurns (h.setOpl p).turns, coreTurn_of_decode (s := s.setOpl p) hd]
  exact ⟨hexec', (coreTurn_mem_turns hstep).2.trans h.turns, hopl.trans h.rOPL, hupc⟩

/-- A run that has gone past FIN came by it, and up to there it is the run of the other operation. -/
theorem Hashing.run_reaches_fin {k : Nat} (h : Hashing o s) (hrun : Sys2Proof.core.run k s = .next t)
    (hpast : untilFin t.upc = false) (p : BitVec 1) :
    ∃ i j u, k = i + j ∧ Hashing o u ∧ u.upc = .fin ∧ Sys2Proof.core.run i s = .next u ∧
      Sys2Proof.core.run i (s.setOpl p) = .next (u.setOpl p) := by
  induction k generalizing s with
  | zero =>
    obtain rfl := Host.Outcome.next.inj hrun
    rw [h.upc] at hpast
    cases hpast
  | succ k ih =>
    by_cases hfin : s.upc = .fin
    · exact ⟨0, k + 1, s, (Nat.zero_add _).symm, h, hfin, rfl, rfl⟩
    · cases hs : step s with
      | next v =>
        obtain ⟨hs', hv⟩ := h.step_setOpl hfin hs p
        rw [core_run_succ hs] at hrun
        obtain ⟨i, j, u, hk, hu, hufin, hi, hi'⟩ := ih hv hrun
        exact ⟨i + 1, j, u, by omega, hu, hufin, (core_run_succ hs).trans hi, (core_run_succ hs').trans hi'⟩
      | fault r => exact nomatch r
      | refused r =>
        rw [core_run_succ_refused hs] at hrun
        cases hrun

/-! ### From FIN to the end -/

theorem RunsTo.of_run {k : Nat} {P : State → Prop} (h : RunsTo k s P) (hrun : Sys2Proof.core.run k s = .next t) :
    P t := by
  obtain ⟨u, hu, hP⟩ := h
  exact Host.Outcome.next.inj (hu.symm.trans hrun) ▸ hP

/-- RET is next, with the result `v` to publish. -/
structure AtRet (v : Word) (s : State) : Prop where
  turns : s.turns = []
  upc : s.upc = .ret
  rR : s.rR = v

/-- A command has ended with the result `v`. -/
structure Ended (v : Word) (s : State) : Prop where
  turns : s.turns = []
  upc : s.upc = .idle
  result : s.result = v

variable {v : Word}

theorem AtRet.run_ret (h : AtRet v s) : RunsTo 1 s (Ended v) :=
  .one ((step_of_noTurns h.turns).trans (coreTurn_ret h.upc)) ⟨h.turns, rfl, h.rR⟩

/-- An idle block with nothing pending stays as it is. -/
theorem Ended.run (h : Ended v s) (k : Nat) : RunsTo k s (Ended v) := by
  have hstep : step s = .next s := (step_of_noTurns h.turns).trans (coreTurn_idle h.upc)
  have hrun : Sys2Proof.core.run k s = .next s := by
    induction k with
    | zero => rfl
    | succ k ih => exact (core_run_succ hstep).trans ih
  exact ⟨s, hrun, h⟩

/-- What FIN computes from the registers of a block (44_finalizer.md R190). -/
def State.finValue (s : State) : Word := finalMix s.k s.rN (s.rX0, s.rX1) s.rS

theorem Hashing.step_fin (h : Hashing o s) (hfin : s.upc = .fin) : step s = exec .fin s :=
  (step_of_noTurns h.turns).trans (coreTurn_fin hfin)

theorem Hashing.run_fin_hash64 (h : Hashing 0 s) (hfin : s.upc = .fin) : RunsTo 1 s (AtRet s.finValue) :=
  .one ((h.step_fin hfin).trans (exec_fin s)) ⟨h.turns, by simp [h.rOPL, afterFin], rfl⟩

theorem Hashing.run_fin_hash32 (h : Hashing 1 s) (hfin : s.upc = .fin) :
    RunsTo 2 s (AtRet (fold32Val s.finValue)) := by
  refine RunsTo.trans (i := 1) (j := 1) (P := fun t => t.turns = [] ∧ t.upc = .fold32 ∧ t.rR = s.finValue)
    (.one ((h.step_fin hfin).trans (exec_fin s)) ⟨h.turns, by simp [h.rOPL, afterFin], rfl⟩) ?_
  rintro t ⟨hturns, hupc, hR⟩
  exact .one ((step_of_noTurns hturns).trans (coreTurn_fold32 hupc)) ⟨hturns, rfl, congrArg fold32Val hR⟩

/-- FIN and RET are two steps, so a run from FIN to the end has at least these. -/
theorem Hashing.two_le_of_run_fin {j : Nat} (h : Hashing 0 s) (hfin : s.upc = .fin)
    (hrun : Sys2Proof.core.run j s = .next t) (hend : t.upc = .idle) : 2 ≤ j := by
  match j with
  | 0 =>
    obtain rfl := Host.Outcome.next.inj hrun
    rw [hfin] at hend
    cases hend
  | 1 =>
    have hret := ((h.run_fin_hash64 hfin).of_run hrun).upc
    rw [hret] at hend
    cases hend
  | j + 2 => exact Nat.le_add_left 2 j

/-- Where a run of HASH64 ends, the run of HASH32 with one step more ends with the fold of the result. -/
theorem Hashing.run_hash32 {k : Nat} (h : Hashing 0 s) (hrun : Sys2Proof.core.run k s = .next t)
    (hend : t.upc = .idle) : RunsTo (k + 1) (s.setOpl 1) (Ended (fold32Val t.result)) := by
  have hpast : untilFin t.upc = false := by rw [hend]; rfl
  obtain ⟨i, j, u, rfl, hu, hfin, hi, hi'⟩ := h.run_reaches_fin hrun hpast 1
  have hj : Sys2Proof.core.run j u = .next t := (core_run_add hi).symm.trans hrun
  obtain ⟨d, rfl⟩ := Nat.exists_eq_add_of_le (hu.two_le_of_run_fin hfin hj hend)
  have hresult : t.result = u.finValue :=
    ((((hu.run_fin_hash64 hfin).trans fun _ h => h.run_ret).trans fun _ h => h.run d).of_run hj).result
  have hfold : RunsTo (2 + 1 + d) (u.setOpl 1) (Ended (fold32Val u.finValue)) :=
    (((hu.setOpl 1).run_fin_hash32 hfin).trans fun _ h => h.run_ret).trans fun _ h => h.run d
  have hsteps : i + (2 + d) + 1 = i + (2 + 1 + d) := by omega
  rw [hresult, hsteps]
  exact RunsTo.trans (P := (· = u.setOpl 1)) ⟨_, hi', rfl⟩ fun _ h => h ▸ hfold

/-! ### The launch and the counts -/

/-- The block that a launch leaves behind, with nothing else pending (45_commands.md R200). -/
def State.launched (o : BitVec 1) (s : State) : State := ((({ s with turns := [] } : State).latch o).flagsLaunch).goto .salt

theorem State.setOpl_launched (s : State) : (s.launched o).setOpl p = s.launched p := rfl

theorem hashing_launched (s : State) (o : BitVec 1) : Hashing o (s.launched o) := ⟨rfl, rfl, rfl⟩

theorem step_launch_of_readable {w : Word} (hidle : s.busy = false) (hm : s.mem.wf = true)
    (hread : Readable s.mem s.data s.size) (hw : o = 0 ∧ w = 1 ∨ o = 1 ∧ w = 2) :
    step { s with turns := [.host (.writeReg 0 w)] } = .next (s.launched o) :=
  (step_launch hw rfl).trans (launch_of_readable (s := { s with turns := [] }) hidle hm hread)

/-- A command runs from SALT to its end in its own number of steps. -/
theorem CommandAt.run_idle {base : Word} {buf : List Byte} (h : CommandAt base buf o .salt 0 [] s) :
    RunsTo (uopCount buf.length o) s fun t => t.upc = .idle := by
  rcases Nat.lt_or_ge 16 buf.length with hn | hn
  · exact (h.run_bulkPath hn).imp fun _ h => h.upc
  · exact (h.run_shortPath hn).imp fun _ h => h.upc

/-- HASH32 takes FOLD32 more than HASH64. -/
theorem uopCount_hash32 (n : Nat) : uopCount n 1 = uopCount n 0 + 1 := by
  simp [uopCount]

end Sys2Proof.Machine

namespace Sys2Proof.Proofs

open Sys2Proof Sys2Proof.Machine

/-- Settles O49: the two launches differ in the latched operation alone, the two runs stay so until FIN, and from there HASH32
folds once more. -/
theorem hash32IsTheFoldOfHash64 : Obligations.Hash32IsTheFoldOfHash64 := by
  intro s t t' buf hidle hm hsize hbuf hrun64 hrun32
  have hread : Readable s.mem s.data s.size := readable_of_holdsAt hsize.symm hbuf
  have hend : t.upc = .idle :=
    ((commandAt_launch (s := { s with turns := [.host (.writeReg 0 1)] }) hidle hm hsize hbuf (.inl ⟨rfl, rfl⟩) rfl).trans
      fun _ h => h.run_idle).of_run hrun64
  rw [Nat.add_comm, core_run_succ (step_launch_of_readable hidle hm hread (.inl ⟨rfl, rfl⟩))] at hrun64
  rw [Nat.add_comm, core_run_succ (step_launch_of_readable hidle hm hread (.inr ⟨rfl, rfl⟩)), uopCount_hash32] at hrun32
  have hfold := ((hashing_launched s 0).run_hash32 hrun64 hend).of_run (s.setOpl_launched ▸ hrun32)
  rw [hfold.result, fold32Val_toNat]

end Sys2Proof.Proofs

/-! SUPPORT. What a command computes on its way: the registers at each of its µops, as the partial values of the hash function,
and that every µop takes them to the next ones (45_commands.md R200 to R206, 43_bulk_folder.md R175, R177); the launch, and
where each operation goes next (R205). -/

namespace Sys2Proof.Machine

variable {s t t' : State} {k : ConstTable} {seed salted : Word} {buf : List Byte} {opl : BitVec 1} {u : Upc} {o : Nat}
  {l : List ReadReq} {w : Word}

/-! ### The hash function, path by path (45_commands.md R206) -/

theorem h64_of_le (h : buf.length ≤ 16) :
    h64 k buf seed = finalMix k (BitVec.ofNat 64 buf.length) (packLanes buf) (seed ^^^ k.k0) :=
  if_pos h

theorem h64_of_gt (h : 16 < buf.length) :
    h64 k buf seed =
      finalMix k (BitVec.ofNat 64 buf.length) (tailLanes buf) (bulkSeed k (seed ^^^ k.k0) buf) :=
  if_neg h.not_ge

theorem joined_of_pos (h : 0 < q32 buf.length) :
    joined k salted buf =
      (bulkAccs k salted buf (q32 buf.length)).1 ^^^ (bulkAccs k salted buf (q32 buf.length)).2 :=
  if_pos h

theorem joined_of_zero (h : q32 buf.length = 0) : joined k salted buf = salted :=
  if_neg (by omega)

theorem bulkSeed_of_chunk (h : q16 buf.length = 1) :
    bulkSeed k salted buf = mixVal (word8 buf (32 * q32 buf.length) ^^^ k.k1)
      (word8 buf (32 * q32 buf.length + 8) ^^^ joined k salted buf) :=
  if_pos h

theorem bulkSeed_of_noChunk (h : q16 buf.length ≠ 1) : bulkSeed k salted buf = joined k salted buf :=
  if_neg h

/-- What a command publishes: the hash for HASH64, its zero-extended 32-bit form for HASH32 (45_commands.md R206). -/
def hashResult (k : ConstTable) (buf : List Byte) (seed : Word) (opl : BitVec 1) : Word :=
  if opl = 1 then (h32 k buf seed).zeroExtend 64 else h64 k buf seed

theorem hashResult_hash64 : hashResult k buf seed 0 = h64 k buf seed := rfl

theorem hashResult_hash32 : hashResult k buf seed 1 = (h32 k buf seed).zeroExtend 64 := rfl

/-- FOLD32 computes the 32-bit hash from the 64-bit one (44_finalizer.md R191). -/
theorem fold32Val_h64 : fold32Val (h64 k buf seed) = (h32 k buf seed).zeroExtend 64 := rfl

/-! ### What the core's step keeps -/

/-- The constants, the operand registers and the input space of `t` are those of `s`. -/
structure KeepsOperands (s t : State) : Prop where
  k : t.k = s.k
  size : t.size = s.size
  data : t.data = s.data
  seed : t.seed = s.seed
  mem : t.mem = s.mem

theorem KeepsOperands.trans (h : KeepsOperands s t) (h' : KeepsOperands t t') : KeepsOperands s t' :=
  ⟨h'.k.trans h.k, h'.size.trans h.size, h'.data.trans h.data, h'.seed.trans h.seed, h'.mem.trans h.mem⟩

theorem coreTurn_keepsOperands (h : coreTurn s = .next t) : KeepsOperands s t := by
  rcases coreTurn_next h with rfl | ⟨i, -, he⟩
  · exact ⟨rfl, rfl, rfl, rfl, rfl⟩
  · obtain ⟨⟨hk, -, hsize, hdata, hseed, -⟩, -⟩ := Proofs.onlyTheListedOperationsWrite i s t he
    exact ⟨hk, hsize, hdata, hseed, exec_mem he⟩

/-! ### The partial values -/

/-- What the registers hold of the hash of `buf` when the µop `u` is next and the chunks before offset `o` are folded. -/
def ValuesAt (k : ConstTable) (seed : Word) (buf : List Byte) (opl : BitVec 1) (u : Upc) (o : Nat) (t : State) : Prop :=
  match u with
  | .salt => o = 0 ∧ t.rS = seed
  | .pack => o = 0 ∧ buf.length ≤ 16 ∧ t.rS = seed ^^^ k.k0
  | .binit => o = 0 ∧ 16 < buf.length ∧ t.rS = seed ^^^ k.k0
  | .b32 => ∃ j < q32 buf.length, o = 32 * j ∧ (t.rS0, t.rS1) = bulkAccs k (seed ^^^ k.k0) buf j
  | .bjoin => 0 < q32 buf.length ∧ o = 32 * q32 buf.length ∧
      (t.rS0, t.rS1) = bulkAccs k (seed ^^^ k.k0) buf (q32 buf.length)
  | .b16 => q16 buf.length = 1 ∧ o = 32 * q32 buf.length ∧ t.rS = joined k (seed ^^^ k.k0) buf
  | .tail => 16 < buf.length ∧ t.rS = bulkSeed k (seed ^^^ k.k0) buf
  | .fin => t.finValue = h64 k buf seed
  | .fold32 => opl = 1 ∧ t.rR = h64 k buf seed
  | .ret => t.rR = hashResult k buf seed opl
  | .idle => t.result = hashResult k buf seed opl ∧ t.done = true ∧ t.busy = false

/-- The command that `s` launches over `buf` stands at the µop `u` in `t`, and is right so far. -/
structure ComputesAt (s : State) (buf : List Byte) (opl : BitVec 1) (u : Upc) (o : Nat) (l : List ReadReq) (t : State) :
    Prop extends CommandAt s.data buf opl u o l t where
  operands : KeepsOperands s t
  values : ValuesAt s.k s.seed buf opl u o t

/-- The command that `s` launches over `buf` is somewhere on its way, and is right so far. -/
def Computes (s : State) (buf : List Byte) (opl : BitVec 1) (t : State) : Prop :=
  ∃ u o l, ComputesAt s buf opl u o l t

/-- A launched command has its seed, and nothing else yet. -/
theorem computes_launch (hidle : s.busy = false) (hm : s.mem.wf = true) (hsize : s.size.toNat = buf.length)
    (hbuf : HoldsAt s.mem s.data buf) (hw : opl = 0 ∧ w = 1 ∨ opl = 1 ∧ w = 2)
    (hs : s.turns = [.host (.writeReg 0 w)]) : RunsTo 1 s (ComputesAt s buf opl .salt 0 []) := by
  have hread : Readable s.mem s.data s.size := readable_of_holdsAt hsize.symm hbuf
  have hstep : step s = .next (s.launched opl) :=
    (step_launch hw hs).trans (launch_of_readable (s := { s with turns := [] }) hidle hm hread)
  have hat := (commandAt_launch hidle hm hsize hbuf hw hs).of_run (core_run_succ hstep)
  exact .one hstep ⟨hat, ⟨rfl, rfl, rfl, rfl, rfl⟩, rfl, rfl⟩

/-! ### The chunks' values (43_bulk_folder.md R177) -/

/-- A 32-byte chunk takes the accumulators to those of one chunk more. -/
theorem bulkAccs_afterChunk32 {j : Nat} (h : (t.rS0, t.rS1) = bulkAccs t.k salted buf j) :
    ((afterChunk32 t (word8 buf (32 * j)) (word8 buf (32 * j + 8)) (word8 buf (32 * j + 16))
        (word8 buf (32 * j + 24))).rS0,
      (afterChunk32 t (word8 buf (32 * j)) (word8 buf (32 * j + 8)) (word8 buf (32 * j + 16))
        (word8 buf (32 * j + 24))).rS1) = bulkAccs t.k salted buf (j + 1) := by
  rw [bulkAccs, ← h, afterChunk32_eq]

/-- A 16-byte chunk takes the running seed to that of the tail. -/
theorem bulkSeed_afterChunk16 (hq : q16 buf.length = 1) (h : t.rS = joined t.k salted buf) :
    (afterChunk16 t (word8 buf (32 * q32 buf.length)) (word8 buf (32 * q32 buf.length + 8))).rS =
      bulkSeed t.k salted buf := by
  rw [bulkSeed_of_chunk hq, ← h, afterChunk16_eq]

namespace ComputesAt

/-- A step of the core goes on computing if it takes the command to a µop whose partial values it leaves. -/
theorem run_next {u' : Upc} {o' : Nat} {l' : List ReadReq} (h : ComputesAt s buf opl u o l t) (hstep : step t = .next t')
    (hat : RunsTo 1 t (CommandAt s.data buf opl u' o' l')) (hvalues : ValuesAt s.k s.seed buf opl u' o' t') :
    RunsTo 1 t (Computes s buf opl) :=
  .one hstep ⟨u', o', l', hat.of_run (core_run_succ hstep),
    h.operands.trans (coreTurn_keepsOperands (h.step_eq.symm.trans hstep)), hvalues⟩

theorem rN_eq (h : ComputesAt s buf opl u o l t) : t.rN = BitVec.ofNat 64 buf.length := by
  rw [← h.rN, BitVec.ofNat_toNat, BitVec.setWidth_eq]

/-! ### The µops, one by one -/

theorem run_salt (h : ComputesAt s buf opl .salt o l t) : RunsTo 1 t (Computes s buf opl) := by
  obtain ⟨rfl, hS⟩ := h.values
  refine h.run_next (h.step_eq.trans (coreTurn_salt h.upc)) h.toCommandAt.run_salt ?_
  have hsalted : t.rS ^^^ t.k.k0 = s.seed ^^^ s.k.k0 := by rw [hS, h.operands.k]
  split_ifs with hn
  · exact ⟨rfl, hn, hsalted⟩
  · exact ⟨rfl, by omega, hsalted⟩

theorem run_pack (h : ComputesAt s buf opl .pack o l t) : RunsTo 1 t (Computes s buf opl) := by
  obtain ⟨rfl, hn, hS⟩ := h.values
  have hP : t.rP = s.data := by simpa using h.rP
  obtain ⟨i, hi⟩ := decodeSize_of_le (h.rN ▸ hn)
  have hstep := (h.step_eq.trans (coreTurn_pack h.upc hi)).trans
    (exec_layout_packLanes hi h.rN.symm (hP ▸ h.buffer))
  refine h.run_next hstep (.one hstep ⟨h.turns, rfl, h.rOPL, h.buffer, h.rN, h.rI, h.rP, rfl⟩) ?_
  have hvalue : finalMix t.k t.rN (packLanes buf) t.rS = h64 s.k buf s.seed := by
    rw [h64_of_le hn, h.rN_eq, h.operands.k, hS]
  exact hvalue

/-- The first chunk of the longer buffers is one of 32 bytes; a buffer of 17 to 32 bytes has one of 16 only. -/
theorem run_binit (h : ComputesAt s buf opl .binit o l t) : RunsTo 1 t (Computes s buf opl) := by
  obtain ⟨rfl, hn, hS⟩ := h.values
  refine h.run_next (h.step_eq.trans (coreTurn_binit h.upc)) (h.toCommandAt.run_binit hn) ?_
  split_ifs with hlong
  · refine ⟨0, q32_pos_iff.2 hlong, rfl, ?_⟩
    rw [← hS]
    rfl
  · have hq : q32 buf.length = 0 := by have := q32_pos_iff (n := buf.length); omega
    exact ⟨q16_eq_one_iff.2 (by omega), by omega, (joined_of_zero hq).symm ▸ hS⟩

theorem run_b32 (h : ComputesAt s buf opl .b32 o l t) : RunsTo 1 t (Computes s buf opl) := by
  obtain ⟨j, hj, rfl, haccs⟩ := h.values
  have hleft : 32 * j + 32 < buf.length := by unfold q32 at hj; omega
  refine h.run_next (h.step_b32 hleft) (h.toCommandAt.run_b32 hleft) ?_
  rw [← h.operands.k] at haccs ⊢
  have hchunk := bulkAccs_afterChunk32 haccs
  split_ifs with hmore
  · exact ⟨j + 1, by unfold q32; omega, rfl, hchunk⟩
  · have hlast : j + 1 = q32 buf.length := by unfold q32 at hj ⊢; omega
    exact ⟨by omega, by omega, hlast ▸ hchunk⟩

theorem run_bjoin (h : ComputesAt s buf opl .bjoin o l t) : RunsTo 1 t (Computes s buf opl) := by
  obtain ⟨hq, rfl, haccs⟩ := h.values
  refine h.run_next (h.step_eq.trans (coreTurn_bjoin h.upc)) h.toCommandAt.run_bjoin ?_
  have hjoined : t.rS0 ^^^ t.rS1 = joined s.k (s.seed ^^^ s.k.k0) buf := by
    rw [joined_of_pos hq, ← haccs]
  split_ifs with hmore
  · exact ⟨q16_eq_one_iff.2 hmore, rfl, hjoined⟩
  · have hn : 16 < buf.length := by have := q32_pos_iff.1 hq; omega
    exact ⟨hn, hjoined.trans (bulkSeed_of_noChunk fun h => hmore (q16_eq_one_iff.1 h)).symm⟩

theorem run_b16 (h : ComputesAt s buf opl .b16 o l t) : RunsTo 1 t (Computes s buf opl) := by
  obtain ⟨hq, rfl, hS⟩ := h.values
  have hleft : 32 * q32 buf.length + 16 < buf.length := q16_eq_one_iff.1 hq
  have hlast : buf.length ≤ 32 * q32 buf.length + 32 := by unfold q32; omega
  refine h.run_next (h.step_b16 hleft) (h.toCommandAt.run_b16 hleft hlast) ?_
  rw [← h.operands.k] at hS ⊢
  exact ⟨by omega, bulkSeed_afterChunk16 hq hS⟩

theorem run_tail (h : ComputesAt s buf opl .tail o l t) : RunsTo 1 t (Computes s buf opl) := by
  obtain ⟨hn, hS⟩ := h.values
  have hstep := (h.step_eq.trans (coreTurn_tail h.upc)).trans
    (execTail_of_rd (h.rd_fromEnd (by omega) (by omega)) (h.rd_fromEnd (by omega) le_rfl))
  refine h.run_next hstep (h.toCommandAt.run_tail hn) ?_
  have hvalue : finalMix t.k t.rN (tailLanes buf) t.rS = h64 s.k buf s.seed := by
    rw [h64_of_gt hn, h.rN_eq, h.operands.k, hS]
  exact hvalue

theorem run_fin (h : ComputesAt s buf opl .fin o l t) : RunsTo 1 t (Computes s buf opl) := by
  have hvalue : t.finValue = h64 s.k buf s.seed := h.values
  refine h.run_next ((h.step_eq.trans (coreTurn_fin h.upc)).trans (exec_fin t)) h.toCommandAt.run_fin ?_
  split_ifs with hopl
  · exact ⟨hopl, hvalue⟩
  · exact hvalue.trans (if_neg hopl).symm

theorem run_fold32 (h : ComputesAt s buf opl .fold32 o l t) : RunsTo 1 t (Computes s buf opl) := by
  obtain ⟨rfl, hR⟩ := h.values
  refine h.run_next (h.step_eq.trans (coreTurn_fold32 h.upc)) h.toCommandAt.run_fold32 ?_
  exact (congrArg fold32Val hR).trans fold32Val_h64

theorem run_ret (h : ComputesAt s buf opl .ret o l t) : RunsTo 1 t (Computes s buf opl) :=
  h.run_next (h.step_eq.trans (coreTurn_ret h.upc)) h.toCommandAt.run_ret ⟨h.values, rfl, rfl⟩

/-- A command that has ended stays as it is. -/
theorem run_idle (h : ComputesAt s buf opl .idle o l t) : RunsTo 1 t (Computes s buf opl) :=
  .one (h.step_eq.trans (coreTurn_idle h.upc)) ⟨.idle, o, l, h⟩

end ComputesAt

/-! ### The whole command -/

/-- Whatever the µop, the core's step goes on computing. -/
theorem Computes.run_one (h : Computes s buf opl t) : RunsTo 1 t (Computes s buf opl) := by
  obtain ⟨u, o, l, h⟩ := h
  cases u with
  | idle => exact h.run_idle
  | salt => exact h.run_salt
  | pack => exact h.run_pack
  | binit => exact h.run_binit
  | b32 => exact h.run_b32
  | bjoin => exact h.run_bjoin
  | b16 => exact h.run_b16
  | tail => exact h.run_tail
  | fin => exact h.run_fin
  | fold32 => exact h.run_fold32
  | ret => exact h.run_ret

theorem Computes.run (h : Computes s buf opl t) (j : Nat) : RunsTo j t (Computes s buf opl) := by
  induction j with
  | zero => exact .zero h
  | succ j ih => exact ih.trans fun _ h => h.run_one

/-- What the host finds when the command that it launched in `s` has ended (45_commands.md R204, R206). -/
structure Finished (s : State) (buf : List Byte) (opl : BitVec 1) (t : State) : Prop where
  result : t.result = hashResult s.k buf s.seed opl
  done : t.done = true
  busy : t.busy = false
  upc : t.upc = .idle
  operands : KeepsOperands s t

theorem Finished.observed (h : Finished s buf opl t) :
    t.result = hashResult s.k buf s.seed opl ∧ t.done = true ∧ t.busy = false ∧ t.upc = .idle ∧
      t.size = s.size ∧ t.data = s.data ∧ t.seed = s.seed ∧ t.k = s.k ∧ ∀ a, t.mem.byteAt a = s.mem.byteAt a :=
  ⟨h.result, h.done, h.busy, h.upc, h.operands.size, h.operands.data, h.operands.seed, h.operands.k,
    fun _ => by rw [h.operands.mem]⟩

theorem Computes.finished (h : Computes s buf opl t) (hend : t.upc = .idle) : Finished s buf opl t := by
  obtain ⟨u, o, l, h⟩ := h
  obtain rfl : u = .idle := h.upc.symm.trans hend
  obtain ⟨hresult, hdone, hbusy⟩ := h.values
  exact ⟨hresult, hdone, hbusy, hend, h.operands⟩

/-- A command that is launched on an idle block ends with its hash, after its own number of µops. -/
theorem run_command (hidle : s.busy = false) (hm : s.mem.wf = true) (hsize : s.size.toNat = buf.length)
    (hbuf : HoldsAt s.mem s.data buf) (hw : opl = 0 ∧ w = 1 ∨ opl = 1 ∧ w = 2)
    (hs : s.turns = [.host (.writeReg 0 w)]) : RunsTo (1 + uopCount buf.length opl) s (Finished s buf opl) := by
  refine (computes_launch hidle hm hsize hbuf hw hs).trans fun t h => ?_
  obtain ⟨t', hrun, hcomputes⟩ := Computes.run ⟨_, _, _, h⟩ (uopCount buf.length opl)
  exact ⟨t', hrun, hcomputes.finished (h.toCommandAt.run_idle.of_run hrun)⟩

/-! ### The launch (45_commands.md R200) -/

/-- A word other than the two commands does nothing (30_encoding.md R97). -/
theorem writeTurn_cmd_of_ne (h1 : w ≠ 1) (h2 : w ≠ 2) (s : State) : writeTurn 0 w s = .next s := by
  cases hd : decode (.cmd w) with
  | error r => rw [writeTurn, hd]
  | ok i =>
    rcases decodeCmd_ok hd with ⟨hw, -⟩ | ⟨hw, -⟩
    · exact absurd hw h1
    · exact absurd hw h2

/-- The next state of a launch, written out. -/
theorem launch_eq_of_readable (hidle : s.busy = false) (hm : s.mem.wf = true) (hread : Readable s.mem s.data s.size)
    (opl : BitVec 1) :
    launch opl s = .next { s with
      rOPL := opl, rN := s.size, rI := s.size, rP := s.data, rS := s.seed
      busy := true, done := false, upc := .salt, reads := [] } :=
  launch_of_readable hidle hm hread

theorem launch_of_busy (hbusy : s.busy = true) (opl : BitVec 1) : launch opl s = .next s :=
  if_pos hbusy

/-- A launch goes to SALT, or is ignored (45_commands.md R205). -/
theorem launch_upc (h : launch opl s = .next t) : t.upc = if s.busy then s.upc else .salt := by
  rcases launch_next h with ⟨hbusy, rfl⟩ | ⟨hidle, -, -, rfl⟩
  · exact (if_pos hbusy).symm
  · simp [hidle]

end Sys2Proof.Machine

namespace Sys2Proof.Proofs

open Sys2Proof Sys2Proof.Machine

/-- Settles O45: every µop carries the partial values of the hash on, and the last one publishes them. -/
theorem hash64ComputesTheHash : Obligations.Hash64ComputesTheHash := by
  intro s buf hidle hm hsize hbuf hs
  exact (run_command hidle hm hsize hbuf (.inl ⟨rfl, rfl⟩) hs).imp fun _ h => by
    simpa only [hashResult_hash64] using h.observed

/-- Settles O46, by the same course, which FOLD32 lengthens by one µop. -/
theorem hash32ComputesTheFoldedHash : Obligations.Hash32ComputesTheFoldedHash := by
  intro s buf hidle hm hsize hbuf hs
  exact (run_command hidle hm hsize hbuf (.inr ⟨rfl, rfl⟩) hs).imp fun _ h => by
    simpa only [hashResult_hash32] using h.observed

/-- Settles O8, by cases on the instruction: the branch that each took is on a register that it leaves as it tested it. -/
theorem successorRelationIsComplete : Obligations.SuccessorRelationIsComplete := by
  intro i s t h
  cases i with
  | hash64 | hash32 => exact launch_upc h
  | salt | binit | bjoin | fin | fold32 | ret | mum | mix => obtain rfl := Host.Outcome.next.inj h; rfl
  | pack0 | pack1 | pack2 | pack3 | pack4 | pack5 | pack6 | pack7 | pack8 | pack9 | pack10 | pack11 | pack12 | pack13
  | pack14 | pack15 | pack16 => obtain ⟨x0, x1, l, rfl⟩ := exec_layout_next rfl h; rfl
  | b32 => obtain ⟨v0, v1, v2, v3, -, -, -, -, rfl⟩ := execB32_next h; rfl
  | b16 => obtain ⟨v0, v1, -, -, rfl⟩ := execB16_next h; rfl
  | tail => obtain ⟨v0, v1, -, -, rfl⟩ := execTail_next h; rfl
  | rd1 | rd2 | rd4 | rd8 => obtain ⟨v, -, rfl⟩ := reader_next h; rfl

/-- Settles O48: both results are the hash of the same operands. -/
theorem resultDependsOnTheOperandsAlone : Obligations.ResultDependsOnTheOperandsAlone := by
  intro s s' t t' buf opl w hw hidle hidle' hm hm' hk hseed hsize hlen hbuf hbuf' hs hs' hrun hrun'
  have hend := (run_command hidle hm hlen hbuf hw hs).of_run hrun
  have hend' := (run_command hidle' hm' (hsize ▸ hlen) hbuf' hw hs').of_run hrun'
  rw [hend.result, hend'.result, hk, hseed]

/-- Settles O5, turn by turn: each takes its turn and runs what it decodes. -/
theorem stepRunsTheDecodedInstruction : Obligations.StepRunsTheDecodedInstruction := by
  intro s i rest
  refine ⟨fun hs hd => ?core, fun hs hd => ?queued, fun w hs hd => ?command, fun u a b hs hd => ?prim⟩
  case core => rw [step_of_noTurns hs, coreTurn_of_decode hd]
  case queued =>
    rw [step_core hs, State.takeTurn_of_turns hs]
    exact coreTurn_of_decode (s := { s with turns := rest }) hd
  case command => rw [step_host hs, State.takeTurn_of_turns hs, hostTurn, writeTurn, hd]
  case prim => rw [step_prim hs, State.takeTurn_of_turns hs, primTurn, hd]

/-- Settles O9: the launch latches what it launches with, a `CMD` write is one only for the two words, and no other
register write reaches the command. -/
theorem launchLatchesTheOperands : Obligations.LaunchLatchesTheOperands := by
  refine ⟨⟨decode_encode .hash64, decode_encode .hash32⟩, fun s w rest hs => ⟨fun hnone => ?ignored, ?hash64, ?hash32⟩,
    fun s reg w rest hs => ?register, fun s => ⟨fun hidle hm hread => ?launch, fun hbusy => ?busy⟩⟩
  case ignored =>
    rw [step_host hs, State.takeTurn_of_turns hs]
    rcases hnone with hbusy | ⟨h1, h2⟩
    · exact writeTurn_cmd_of_busy (s := { s with turns := rest }) hbusy w
    · exact writeTurn_cmd_of_ne h1 h2 _
  case hash64 => rintro rfl; exact step_launch (.inl ⟨rfl, rfl⟩) hs
  case hash32 => rintro rfl; exact step_launch (.inr ⟨rfl, rfl⟩) hs
  case register =>
    have hsame := writeRegister_commandPart (reg + 1) w { s with turns := rest }
    exact ⟨_, step_writeReg hs (Nat.succ_ne_zero reg), (congrArg State.rOPL hsame :), (congrArg State.rN hsame :),
      (congrArg State.rI hsame :), (congrArg State.rP hsame :), (congrArg State.rS hsame :),
      (congrArg State.busy hsame :), (congrArg State.done hsame :), (congrArg State.upc hsame :)⟩
  case launch =>
    exact ⟨⟨[], launch_eq_of_readable hidle hm hread 0⟩, ⟨[], launch_eq_of_readable hidle hm hread 1⟩⟩
  case busy => exact ⟨launch_of_busy hbusy 0, launch_of_busy hbusy 1⟩

/-- Settles O13. SALT's meaning is the rule's equation. -/
theorem saltSaltsTheSeedAndChoosesThePath : Obligations.SaltSaltsTheSeedAndChoosesThePath :=
  ⟨decode_encode .salt, fun _ => rfl⟩

/-- Settles O14. RET's meaning is the rule's equation, and `STATUS` is read off the flags it writes. -/
theorem retPublishesTheResult : Obligations.RetPublishesTheResult :=
  ⟨decode_encode .ret, fun _ => ⟨rfl, status_eq_add _⟩⟩

end Sys2Proof.Proofs

/-! SUPPORT. Why the core of a running command never stops: the invariant gives the command a readable window to stand in, so
whatever its µop reads holds bytes (20_memory.md R65, 43_bulk_folder.md R176). -/

namespace Sys2Proof.Machine

variable {s : State}

/-- A running command stands in its window with the `N - I` bytes before its cursor folded (43_bulk_folder.md R176). -/
theorem Inv.commandAt (hi : Inv s) (hs : s.turns = []) (hbusy : s.busy = true) :
    ∃ buf, CommandAt s.windowBase buf s.rOPL s.upc (s.rN.toNat - s.rI.toNat) s.reads s := by
  obtain ⟨hread, hIN⟩ := hi.window hbusy
  obtain ⟨buf, hlen, hbuf⟩ := exists_holdsAt hread
  refine ⟨buf, hs, rfl, rfl, hbuf, hlen.symm, by omega, ?_, rfl⟩
  apply BitVec.eq_of_toNat_eq
  simp only [State.windowBase, BitVec.toNat_add, BitVec.toNat_sub, BitVec.toNat_ofNat]
  omega

/-- While all bytes of the window remain, the cursor is at its base. -/
theorem State.windowBase_of_rI_eq (h : s.rI = s.rN) : s.windowBase = s.rP := by
  rw [State.windowBase, h, BitVec.add_sub_cancel]

/-- The core of a running command has a next state: of the µops, only PACK, B32, B16 and TAIL read, and what they read lies
in the window (40_mix.md R125, 41_byte_readers.md R134). -/
theorem Inv.coreTurn_completes (hi : Inv s) (hs : s.turns = []) (hbusy : s.busy = true) :
    ∃ t, coreTurn s = .next t := by
  obtain ⟨buf, hat⟩ := hi.commandAt hs hbusy
  have hlen := hat.rN
  have hI := hat.rI
  have hstage := hi.stage hbusy
  cases hu : s.upc with
  | idle => exact ⟨s, coreTurn_idle hu⟩
  | salt => exact ⟨_, coreTurn_salt hu⟩
  | binit => exact ⟨_, coreTurn_binit hu⟩
  | bjoin => exact ⟨_, coreTurn_bjoin hu⟩
  | fin => exact ⟨_, coreTurn_fin hu⟩
  | fold32 => exact ⟨_, coreTurn_fold32 hu⟩
  | ret => exact ⟨_, coreTurn_ret hu⟩
  | pack =>
    obtain ⟨hIN, hshort⟩ : s.rI = s.rN ∧ s.rN.toNat ≤ 16 := by simpa [StageOk, hu] using hstage
    obtain ⟨i, hd⟩ := decodeSize_of_le hshort
    have hbuf : HoldsAt s.mem s.rP buf := State.windowBase_of_rI_eq hIN ▸ hat.buffer
    exact ⟨_, (coreTurn_pack hu hd).trans (exec_layout_packLanes hd hlen.symm hbuf)⟩
  | b32 =>
    obtain ⟨-, hmore⟩ : 16 < s.rN.toNat ∧ 32 < s.rI.toNat := by simpa [StageOk, hu] using hstage
    rw [hu] at hat
    exact ⟨_, hat.step_eq.symm.trans (hat.step_b32 (by omega))⟩
  | b16 =>
    obtain ⟨-, hmore, -⟩ : 16 < s.rN.toNat ∧ 16 < s.rI.toNat ∧ s.rI.toNat ≤ 32 := by simpa [StageOk, hu] using hstage
    rw [hu] at hat
    exact ⟨_, hat.step_eq.symm.trans (hat.step_b16 (by omega))⟩
  | tail =>
    obtain ⟨hbulk, -, -⟩ : 16 < s.rN.toNat ∧ 1 ≤ s.rI.toNat ∧ s.rI.toNat ≤ 16 := by simpa [StageOk, hu] using hstage
    have hlast := execTail_of_rd (hat.rd_fromEnd (c := 16) (by omega) (by decide)) (hat.rd_fromEnd (by omega) le_rfl)
    exact ⟨_, (coreTurn_tail hu).trans hlast⟩

end Sys2Proof.Machine

namespace Sys2Proof.Proofs

open Sys2Proof Sys2Proof.Machine

/-- Settles O7, by cases on what a step can do: no µop is the core's at `IDLE`, a launch is the write that the statement
asks for, and nothing else moves `UPC` away from it. -/
theorem idleBlockKeepsEverything : Obligations.IdleBlockKeepsEverything := by
  refine ⟨fun s hidle hs => ?stutter, fun s rest hidle hs => ?queued, fun s t hidle h hleaves => ?leaves⟩
  case stutter => rw [step_of_noTurns hs, coreTurn_idle hidle]
  case queued =>
    rw [step_core hs, State.takeTurn_of_turns hs]
    exact coreTurn_idle hidle
  case leaves =>
    rcases step_next h with hsame | ⟨i, hu, -⟩ | ⟨hcmd, -⟩ | ⟨a, b, rfl⟩ | ⟨rest, -, rfl⟩
    · exact absurd ((congrArg State.upc hsame :).trans hidle) hleaves
    · exact absurd (hidle ▸ hu) (uopOf_ne_idle i)
    · exact hcmd
    · exact absurd hidle hleaves
    · exact absurd rfl hleaves

/-- Settles O42: an idle block stutters, and the core of a running command completes in its readable window. -/
theorem coreNeverStops : Obligations.CoreNeverStops := by
  intro s hi hs
  rw [step_of_noTurns hs]
  cases hbusy : s.busy with
  | true => exact hi.coreTurn_completes hs hbusy
  | false =>
    have hidle : s.upc = .idle := by simpa [hbusy] using hi.busyIff
    exact ⟨s, coreTurn_idle hidle⟩

end Sys2Proof.Proofs

/-! SUPPORT. The core works on what a launch latched: no µop reads an operand register, so the values that the host puts there
while a command runs do not reach it (10_state.md R43, 70_reset_and_hazards.md R267). And the block that a reset leaves. -/

namespace Sys2Proof.Machine

variable {s t : State} {i : Instr} {size data seed : Word}

/-! ### The operand registers -/

/-- The block with other values in the operand registers. -/
def State.setOperands (size data seed : Word) (s : State) : State := { s with size := size, data := data, seed := seed }

/-- On two states with the same operand registers, a register write puts the same values there. -/
theorem writeRegister_eq_setOperands (h : KeepsOperands s t) (reg : Nat) (w : Word) :
    ∃ size data seed, writeRegister reg w s = s.setOperands size data seed ∧
      writeRegister reg w t = t.setOperands size data seed := by
  match reg with
  | 2 => exact ⟨w, s.data, s.seed, rfl, by rw [← h.data, ← h.seed]; rfl⟩
  | 3 => exact ⟨s.size, w, s.seed, rfl, by rw [← h.size, ← h.seed]; rfl⟩
  | 4 => exact ⟨s.size, s.data, w, rfl, by rw [← h.size, ← h.data]; rfl⟩
  | 0 | 1 | n + 5 => exact ⟨s.size, s.data, s.seed, rfl, by rw [← h.size, ← h.data, ← h.seed]; rfl⟩

/-! ### The core's turn with other operands -/

theorem packWith_setOperands {l0 l1 : List Piece} (h : packWith l0 l1 s = .next t) :
    packWith l0 l1 (s.setOperands size data seed) = .next (t.setOperands size data seed) := by
  obtain ⟨x0, x1, h0, h1, rfl⟩ := packWith_next h
  exact packWith_of_lanes (s := s.setOperands size data seed) h0 h1

theorem afterChunk32_setOperands (v0 v1 v2 v3 : Word) :
    afterChunk32 (s.setOperands size data seed) v0 v1 v2 v3 = (afterChunk32 s v0 v1 v2 v3).setOperands size data seed := rfl

theorem afterChunk16_setOperands (v0 v1 : Word) :
    afterChunk16 (s.setOperands size data seed) v0 v1 = (afterChunk16 s v0 v1).setOperands size data seed := rfl

/-- No µop reads an operand register, and none writes one. -/
theorem exec_setOperands (hu : uopOf i = some s.upc) (h : exec i s = .next t) :
    exec i (s.setOperands size data seed) = .next (t.setOperands size data seed) := by
  cases i with
  | salt | binit | bjoin | fin | fold32 | ret => obtain rfl := Host.Outcome.next.inj h; rfl
  | pack0 | pack1 | pack2 | pack3 | pack4 | pack5 | pack6 | pack7 | pack8 | pack9 | pack10 | pack11 | pack12 | pack13
  | pack14 | pack15 | pack16 => rw [exec] at h ⊢; exact packWith_setOperands h
  | b32 =>
    obtain ⟨v0, v1, v2, v3, h0, h1, h2, h3, rfl⟩ := execB32_next h
    rw [← afterChunk32_setOperands]
    exact execB32_of_rd (s := s.setOperands size data seed) h0 h1 h2 h3
  | b16 =>
    obtain ⟨v0, v1, h0, h1, rfl⟩ := execB16_next h
    rw [← afterChunk16_setOperands]
    exact execB16_of_rd (s := s.setOperands size data seed) h0 h1
  | tail =>
    obtain ⟨v0, v1, h0, h1, rfl⟩ := execTail_next h
    exact execTail_of_rd (s := s.setOperands size data seed) h0 h1
  | hash64 | hash32 | rd1 | rd2 | rd4 | rd8 | mum | mix => cases hu

theorem coreTurn_of_decode_idle (h : decode (coreEncoding s.upc s.rN) = .error .idle) : coreTurn s = .next s := by
  rw [coreTurn, h]

/-- A turn of the core that completes does nothing at `IDLE`, or runs the operation that `UPC` and `N` encode. -/
theorem coreTurn_decoded (h : coreTurn s = .next t) :
    (decode (coreEncoding s.upc s.rN) = .error .idle ∧ t = s) ∨
    ∃ i, decode (coreEncoding s.upc s.rN) = .ok i ∧ exec i s = .next t := by
  unfold coreTurn at h
  split at h
  · exact .inr ⟨_, ‹_›, h⟩
  · exact .inl ⟨‹_›, (Host.Outcome.next.inj h).symm⟩
  · cases h

/-- The core's turn is the same whatever the operand registers hold, and leaves them as they are. -/
theorem coreTurn_setOperands (h : coreTurn s = .next t) :
    coreTurn (s.setOperands size data seed) = .next (t.setOperands size data seed) := by
  rcases coreTurn_decoded h with ⟨hidle, rfl⟩ | ⟨i, hd, hexec⟩
  · exact coreTurn_of_decode_idle (s := t.setOperands size data seed) hidle
  · rw [coreTurn_of_decode (s := s.setOperands size data seed) hd]
    exact exec_setOperands (uopOf_decode_coreEncoding hd) hexec

theorem coreTurn_writeRegister (h : coreTurn s = .next t) (reg : Nat) (w : Word) :
    coreTurn (writeRegister reg w s) = .next (writeRegister reg w t) := by
  obtain ⟨size, data, seed, hs, ht⟩ := writeRegister_eq_setOperands (coreTurn_keepsOperands h) reg w
  rw [hs, ht]
  exact coreTurn_setOperands h

theorem writeRegister_turns (reg : Nat) (w : Word) (s : State) : (writeRegister reg w s).turns = s.turns := by
  obtain ⟨size, data, seed, hs, -⟩ := writeRegister_eq_setOperands (s := s) ⟨rfl, rfl, rfl, rfl, rfl⟩ reg w
  rw [hs]
  rfl

end Sys2Proof.Machine

namespace Sys2Proof.Proofs

open Sys2Proof Sys2Proof.Machine

/-- Settles O50: with no turn pending the step is the core's, which does not see what the write changes. -/
theorem operandWritesCommuteWithTheCore : Obligations.OperandWritesCommuteWithTheCore := by
  intro s t reg w hs h
  rw [step_of_noTurns hs] at h
  rw [step_of_noTurns ((writeRegister_turns reg w s).trans hs)]
  exact coreTurn_writeRegister h reg w

/-- Settles O57: reset leaves `UPC` at `IDLE`, where the core does nothing, and `BUSY` and `SIZE` at 0, where a launch needs
no readable byte. -/
theorem resetAbandonsTheCommand : Obligations.ResetAbandonsTheCommand := by
  intro s hs
  have hturns : s.takeTurn.blockReset.turns = [] := congrArg List.tail hs
  refine ⟨s.takeTurn.blockReset, step_reset hs, rfl, fun _ => rfl, ?_, ?_⟩
  · rw [step_of_noTurns hturns]
    exact coreTurn_idle rfl
  · have hlaunch := launch_of_empty (s := s.takeTurn.blockReset) (o := 0) rfl rfl
    exact ⟨_, hlaunch, rfl, rfl⟩

end Sys2Proof.Proofs
